-- ==== Sys2Proof/Word.lean ====
section
/-! DEFINITION. The widths of the block (00_scope.md R6, R9, R10): everything is an unsigned integer of a stated width. -/

namespace Sys2Proof

/-- A RegisterIndex, a RegisterValue, a status code, a received or transmitted byte, a host command word (R6). -/
abbrev Byte := BitVec 8

/-- A device address on the bus, `ADDR_W` = 7 (R6, R33). -/
abbrev BusAddr := BitVec 7

/-- `RXLEN`, a 3-bit register (R22). -/
abbrev RxLen := BitVec 3

/-- The event code, bits 7 down to 3 of a status code (R91). -/
abbrev EventCode := BitVec 5

end Sys2Proof
end

