-- ==== Sys2Proof/Config.lean ====
section
/-! DEFINITION. The parameters of the block (00_scope.md R6), the closed event set (40_classifier.md R122), and the
free values: constants without a body, so that nothing can be proved of what they are. -/

namespace Sys2Proof

/-- The closed set of sixteen bus events (R122), the range of every `STATUS_MAP` (R121). -/
inductive EventName where
  | amr      -- AddrMatchRead
  | amrAl    -- AddrMatchReadArbLost
  | dsa      -- DataSentAck
  | dsn      -- DataSentNack
  | dsaLast  -- DataSentAckLastByte
  | amw      -- AddrMatchWrite
  | amwAl    -- AddrMatchWriteArbLost
  | gcm      -- GenCallMatch
  | gcmAl    -- GenCallMatchArbLost
  | draW     -- DataRecvAck(write-addressed)
  | draG     -- DataRecvAck(gen-call)
  | drnW     -- DataRecvNack(write-addressed)
  | drnG     -- DataRecvNack(gen-call)
  | sor      -- StopOrRestart
  | berr     -- BusError
  | unh      -- Unhandled
  deriving DecidableEq, Repr

/-- The parameter `STATUS_MAP` (R6, R121), as the finite list of the status codes whose event is NOT the one the default
table of R123 gives; the empty list is the default table. Every total function from 8-bit codes to the sixteen events is
such a list, and every such list is a total function (log 6). -/
abbrev StatusMap := List (Byte × EventName)

namespace Config

/-- `RX_CAP`, the capacity of the reception buffer (R6). -/
def rxCap : RxLen := 4

/-- `ADDR_MIN`, the least legal device address (R6). -/
def addrMin : BusAddr := 1

/-- `ADDR_MAX`, the greatest legal device address (R6). -/
def addrMax : BusAddr := 127

/-- `TXPEND_RESET` (R6, R39; spec decision D13, log 22). -/
def txpendReset : Byte := 0x00

/-- `RECVNACK_STOP`: the response to DRN_W and DRN_G carries `stop` (R6; conflict C3, log 19). -/
def recvNackStop : Bool := true

/-- What an unbound read hook yields (R200, R201). -/
def unboundRead : Byte := 0x00

/-- FREE VALUE (log 7): the answer of a bound read hook, at the model's `n`-th draw, to the index `i`, where no answer is
scripted (R207, U9: a draw, never a fixed value). -/
opaque freeHookAnswer : Nat → Byte → Byte

/-- FREE VALUE (log 14): what `RXBUF[k]` holds after a hardware reset in mid-run at the `n`-th draw (R39, U1). -/
opaque freeResetByte : Nat → Nat → Byte

/-- FREE VALUE (log 14): what `ADDR` holds after a hardware reset in mid-run at the `n`-th draw (R39, U2). -/
opaque freeResetAddr : Nat → BusAddr

/-- FREE VALUE (log 13): whether a host command goes before an event that is ready together with it (R70, U19). -/
opaque freeCommandFirst : Nat → Bool

end Config
end Sys2Proof
end

