-- ==== Sys2Proof/Syntax.lean ====
section
/-! DEFINITION. The instructions of the block: one EV word with its operand or one HC word (30_encoding.md R90). One
constructor for each of the eighteen mnemonics of spec/opcode_table.json; its seventeen UNH rows are the values of the
code that `unh` carries. -/

namespace Sys2Proof

/-- The eighteen operations (INDEX.md). -/
inductive Instr where
  /-- BERR, BusError (R231). -/
  | berr
  /-- UNH, Unhandled (R232); the code `status[7:3]` is carried for diagnostics and no rule reads it (R122). -/
  | unh (code : EventCode)
  /-- AMW, AddrMatchWrite (R141). -/
  | amw
  /-- AMW_AL, AddrMatchWriteArbLost (R142). -/
  | amwAl
  /-- GCM, GenCallMatch (R143). -/
  | gcm
  /-- GCM_AL, GenCallMatchArbLost (R144). -/
  | gcmAl
  /-- DRA_W, DataRecvAck(write-addressed), with the received byte `data_in` (R145, R93). -/
  | draW (dataIn : Byte)
  /-- DRN_W, DataRecvNack(write-addressed), with `data_in` (R147, R93). -/
  | drnW (dataIn : Byte)
  /-- DRA_G, DataRecvAck(gen-call), with `data_in` (R146, R93). -/
  | draG (dataIn : Byte)
  /-- DRN_G, DataRecvNack(gen-call), with `data_in` (R148, R93). -/
  | drnG (dataIn : Byte)
  /-- SOR, StopOrRestart (R160). -/
  | sor
  /-- AMR, AddrMatchRead (R181). -/
  | amr
  /-- AMR_AL, AddrMatchReadArbLost (R182). -/
  | amrAl
  /-- DSA, DataSentAck (R183). -/
  | dsa
  /-- DSN, DataSentNack (R184). -/
  | dsn
  /-- DSA_LAST, DataSentAckLastByte (R185). -/
  | dsaLast
  /-- INIT `a`, Initialization with the device address (R215). -/
  | init (a : BusAddr)
  /-- SHUTDOWN, Shutdown (R216). -/
  | shutdown
  deriving DecidableEq, Repr

end Sys2Proof
end

