-- ==== Sys2Proof/WellFormed.lean ====
section
/-! DEFINITION. Which terms of `Instr` stand for an encodable instruction of the contract. -/

namespace Sys2Proof

/-- The legal device addresses, 1 to 127 (R6, R217). -/
def legalAddr (a : BusAddr) : Bool := decide (Config.addrMin ≤ a) && decide (a ≤ Config.addrMax)

/-- The seventeen event codes that the default table maps to Unhandled (R92, R123): the eleven master-role codes 0x08 to
0x58, the five undefined codes 0xD0 to 0xF0, and 0xF8; each is the status code divided by 8. -/
def unhandledCode (c : EventCode) : Bool :=
  (decide (1 ≤ c) && decide (c ≤ 11)) || decide (26 ≤ c)

/-- A host command, as opposed to a bus event (R90: format HC, format EV). -/
def Instr.isCommand : Instr → Bool
  | .init _ => true
  | .shutdown => true
  | .berr | .unh _ | .amw | .amwAl | .gcm | .gcmAl | .draW _ | .drnW _ | .draG _ | .drnG _ | .sor | .amr | .amrAl
  | .dsa | .dsn | .dsaLast => false

/-- A term is well-formed when some word of the contract encodes it: UNH carries a code the default table leaves to
Unhandled, and INIT an address in 1 to 127 (R99 c, R217). -/
def Instr.wf : Instr → Bool
  | .unh code => unhandledCode code
  | .init a => legalAddr a
  | .berr | .amw | .amwAl | .gcm | .gcmAl | .draW _ | .drnW _ | .draG _ | .drnG _ | .sor | .amr | .amrAl
  | .dsa | .dsn | .dsaLast | .shutdown => true

end Sys2Proof
end

