-- ==== Sys2Proof/Decode.lean ====
section
/-! DEFINITION. The Bus Event Classifier (40_classifier.md R121 to R126), the host command word (30_encoding.md R94), the
decoder of a word on its port, and the encoder. -/

namespace Sys2Proof

/-- What the bus controller presents with an event, sampled once (R36, R91, R93). -/
structure EventWord where
  status : Byte
  dataIn : Byte
  deriving DecidableEq, Repr

/-- The default `STATUS_MAP` on `status & 0xF8`: the fifteen named codes; every other value is Unhandled (R123). -/
def defaultStatusMap : StatusMap :=
  [(0x00, .berr),
   (0x60, .amw), (0x68, .amwAl), (0x70, .gcm), (0x78, .gcmAl),
   (0x80, .draW), (0x88, .drnW), (0x90, .draG), (0x98, .drnG),
   (0xA0, .sor),
   (0xA8, .amr), (0xB0, .amrAl),
   (0xB8, .dsa), (0xC0, .dsn), (0xC8, .dsaLast)]

/-- `status & 0xF8`: bits 2 down to 0 are ignored (R91). -/
def maskStatus (status : Byte) : Byte := status &&& 0xF8

/-- The event that a table gives a value, if it lists it. -/
def StatusMap.event? (m : StatusMap) (v : Byte) : Option EventName :=
  match m with
  | [] => none
  | (k, e) :: rest => if k = v then some e else StatusMap.event? rest v

/-- `Classify` by the default table (R123): total, with the Unhandled fallback (R124). -/
def classifyDefault (status : Byte) : EventName :=
  (defaultStatusMap.event? (maskStatus status)).getD .unh

/-- `Classify` (R121): the table `m` where it names the code, else the default. DESIGN CHOICE (log 6): `m` is looked up by all
eight bits of `status`, so that every total function from 8-bit codes is some table (D3); only the default is looked up by
`status & 0xF8` (R91), and another table may tell codes apart by bits 2 to 0. -/
def classify (m : StatusMap) (status : Byte) : EventName :=
  match m.event? status with
  | some e => e
  | none => classifyDefault status

/-- The event code `status[7:3]` (R91). -/
def codeOf (status : Byte) : EventCode := status.extractLsb' 3 5

/-- The operation of an event with its operand: `data_in` is read by the four data-received events alone (R93). -/
def EventName.toInstr (e : EventName) (w : EventWord) : Instr :=
  match e with
  | .amr => .amr
  | .amrAl => .amrAl
  | .dsa => .dsa
  | .dsn => .dsn
  | .dsaLast => .dsaLast
  | .amw => .amw
  | .amwAl => .amwAl
  | .gcm => .gcm
  | .gcmAl => .gcmAl
  | .draW => .draW w.dataIn
  | .draG => .draG w.dataIn
  | .drnW => .drnW w.dataIn
  | .drnG => .drnG w.dataIn
  | .sor => .sor
  | .berr => .berr
  | .unh => .unh (codeOf w.status)

/-- The instruction of a word on the event port (format EV, R91 to R93). -/
def decodeEvent (m : StatusMap) (w : EventWord) : Instr :=
  (classify m w.status).toInstr w

/-- The instruction of a word on the host command port (format HC, R94): bit 7 is `op`, bits 6 down to 0 `addr`. -/
def decodeCommand (cmd : Byte) : Instr :=
  if cmd.getLsbD 7 then .init (cmd.extractLsb' 0 7) else .shutdown

/-- A word on one of the block's two instruction ports. -/
inductive PortWord where
  | event (w : EventWord)
  | command (cmd : Byte)
  deriving DecidableEq, Repr

/-- Why bytes are no instruction word. -/
inductive DecodeError where
  /-- The bytes are not the three of an instruction word (log 15). -/
  | wrongLength
  /-- The third byte names neither the event port (0) nor the command port (1) (log 15). -/
  | noSuchPort
  /-- A host command word comes with an operand byte, which format HC does not have (R94, log 15). -/
  | operandOnCommand
  deriving DecidableEq, Repr

/-- An instruction word as three bytes, the first at the lowest place: the status code or the command word, `data_in` (0
for a command), and the port the word is on, 0 for the event port and 1 for the command port (log 15). -/
def portWordOfBytes : List Byte → Except DecodeError PortWord
  | [w, d, p] =>
    if p = 0 then .ok (.event ⟨w, d⟩)
    else if p = 1 then (if d = 0 then .ok (.command w) else .error .operandOnCommand)
    else .error .noSuchPort
  | _ => .error .wrongLength

/-- The instruction of a word on its port. -/
def decodePortWord (m : StatusMap) : PortWord → Instr
  | .event w => decodeEvent m w
  | .command c => decodeCommand c

/-- The decoder, by the default table: total on all bytes, rejecting by name. -/
def decode (bytes : List Byte) : Except DecodeError Instr :=
  match portWordOfBytes bytes with
  | .ok w => .ok (decodePortWord [] w)
  | .error e => .error e

/-- The status code of an event's code: `status[2:0]` is ignored and written 0 (R91, log 27). -/
def statusOfCode (code : EventCode) : Byte := code ++ (0 : BitVec 3)

/-- The word that encodes an instruction, from the tables of R92 and R94; ignored bits are written 0. -/
def encodePortWord : Instr → PortWord
  | .berr => .event ⟨0x00, 0⟩
  | .unh code => .event ⟨statusOfCode code, 0⟩
  | .amw => .event ⟨0x60, 0⟩
  | .amwAl => .event ⟨0x68, 0⟩
  | .gcm => .event ⟨0x70, 0⟩
  | .gcmAl => .event ⟨0x78, 0⟩
  | .draW d => .event ⟨0x80, d⟩
  | .drnW d => .event ⟨0x88, d⟩
  | .draG d => .event ⟨0x90, d⟩
  | .drnG d => .event ⟨0x98, d⟩
  | .sor => .event ⟨0xA0, 0⟩
  | .amr => .event ⟨0xA8, 0⟩
  | .amrAl => .event ⟨0xB0, 0⟩
  | .dsa => .event ⟨0xB8, 0⟩
  | .dsn => .event ⟨0xC0, 0⟩
  | .dsaLast => .event ⟨0xC8, 0⟩
  | .init a => .command ((1 : BitVec 1) ++ a)
  | .shutdown => .command 0x00

/-- The three bytes of a word on its port (log 15). -/
def PortWord.bytes : PortWord → List Byte
  | .event w => [w.status, w.dataIn, 0]
  | .command c => [c, 0, 1]

/-- The encoder: the bytes of an instruction. -/
def encode (i : Instr) : List Byte := (encodePortWord i).bytes

/-- Byte `k` of a number, byte 0 the least significant. -/
def byteOf (w k : Nat) : Byte := BitVec.ofNat 8 (w / 2 ^ (8 * k))

/-- The three bytes of a table word of `nbits` bits: bit 0 is bit 0 of the first byte, and every bit above `nbits` is 0. -/
def tableBytes (nbits w : Nat) : List Byte :=
  let v := w % 2 ^ nbits
  [byteOf v 0, byteOf v 1, byteOf v 2]

/-- The instruction the decoder reads from a table word. The table's rows have 8 bits, so the port byte of such a word is
0 and it is read on the event port; a word of 24 bits with the port byte 1 is a host command (log 15). -/
def decodeTableWord (nbits w : Nat) : Option Instr :=
  if nbits ≤ 24 then
    match decode (tableBytes nbits w) with
    | .ok i => some i
    | .error _ => none
  else none

/-- The row's mnemonic, as spec/opcode_table.json spells it (R122, R94). -/
def Instr.mnemonic : Instr → String
  | .berr => "BERR"
  | .unh _ => "UNH"
  | .amw => "AMW"
  | .amwAl => "AMW_AL"
  | .gcm => "GCM"
  | .gcmAl => "GCM_AL"
  | .draW _ => "DRA_W"
  | .drnW _ => "DRN_W"
  | .draG _ => "DRA_G"
  | .drnG _ => "DRN_G"
  | .sor => "SOR"
  | .amr => "AMR"
  | .amrAl => "AMR_AL"
  | .dsa => "DSA"
  | .dsn => "DSN"
  | .dsaLast => "DSA_LAST"
  | .init _ => "INIT"
  | .shutdown => "SHUTDOWN"

/-- A row of the EV part of spec/opcode_table.json: mask 0xF8, the matched value, the event (R92). -/
structure EventRow where
  value : Byte
  name : EventName
  deriving DecidableEq, Repr

/-- A status code matches a row (mask 0xF8, R91). -/
def EventRow.covers (r : EventRow) (status : Byte) : Bool := decide (maskStatus status = r.value)

/-- The rows 0x00 to 0x78 of the table (R92). -/
def eventRowsLow : List EventRow :=
  [⟨0x00, .berr⟩, ⟨0x08, .unh⟩, ⟨0x10, .unh⟩, ⟨0x18, .unh⟩, ⟨0x20, .unh⟩, ⟨0x28, .unh⟩, ⟨0x30, .unh⟩, ⟨0x38, .unh⟩,
   ⟨0x40, .unh⟩, ⟨0x48, .unh⟩, ⟨0x50, .unh⟩, ⟨0x58, .unh⟩, ⟨0x60, .amw⟩, ⟨0x68, .amwAl⟩, ⟨0x70, .gcm⟩, ⟨0x78, .gcmAl⟩]

/-- The rows 0x80 to 0xF8 of the table (R92). -/
def eventRowsHigh : List EventRow :=
  [⟨0x80, .draW⟩, ⟨0x88, .drnW⟩, ⟨0x90, .draG⟩, ⟨0x98, .drnG⟩, ⟨0xA0, .sor⟩, ⟨0xA8, .amr⟩, ⟨0xB0, .amrAl⟩, ⟨0xB8, .dsa⟩,
   ⟨0xC0, .dsn⟩, ⟨0xC8, .dsaLast⟩, ⟨0xD0, .unh⟩, ⟨0xD8, .unh⟩, ⟨0xE0, .unh⟩, ⟨0xE8, .unh⟩, ⟨0xF0, .unh⟩, ⟨0xF8, .unh⟩]

/-- The thirty-two EV rows of spec/opcode_table.json, written out independently of `defaultStatusMap` (R92). -/
def eventRows : List EventRow := eventRowsLow ++ eventRowsHigh

/-- The address-match events (glossary of 00_scope.md, R125): the six that set `RXLEN` to 0 (R22). -/
def EventName.isAddrMatch : EventName → Bool
  | .amr | .amrAl | .amw | .amwAl | .gcm | .gcmAl => true
  | .dsa | .dsn | .dsaLast | .draW | .draG | .drnW | .drnG | .sor | .berr | .unh => false

/-- The coarse event names of the overview, groups of the sixteen (R125, conflict C1). -/
inductive CoarseEvent where
  | addressMatchedForRead
  | addressMatchedForWrite
  | byteReceivedAck
  | byteReceivedNack
  | stopOrRestart
  | busError
  | arbitrationLost
  deriving DecidableEq, Repr

/-- The events of a coarse name (R125). -/
def CoarseEvent.members : CoarseEvent → List EventName
  | .addressMatchedForRead => [.amr, .amrAl]
  | .addressMatchedForWrite => [.amw, .amwAl, .gcm, .gcmAl]
  | .byteReceivedAck => [.draW, .draG]
  | .byteReceivedNack => [.drnW, .drnG]
  | .stopOrRestart => [.sor]
  | .busError => [.berr]
  | .arbitrationLost => [.amwAl, .gcmAl, .amrAl]

end Sys2Proof
end

