-- ==== Sys2Proof/Machine/State.lean ====
section
/-! DEFINITION. The state of the block and of the agents it meets, as plain data (10_state.md). -/

namespace Sys2Proof.Machine

/-- The dispatcher states, a ghost variable that no rule reads (R25, R26; log 17). -/
inductive Phase where
  | idle
  | receiving
  | txFirst
  | txSubsequent
  deriving DecidableEq, Repr

/-- `RXBUF[0..3]` (R21). -/
structure RxBuf where
  b0 : Byte
  b1 : Byte
  b2 : Byte
  b3 : Byte
  deriving DecidableEq, Repr

/-- The parameters a run is given: the straps (R35, R203) and `STATUS_MAP` (R121). Constants of a run: no operation writes
them (R6). -/
structure Params where
  /-- `RD_BOUND`: the read hook is bound. -/
  rdBound : Bool
  /-- `WR_BOUND`: the write hook is bound. -/
  wrBound : Bool
  /-- `STATUS_MAP`, as exceptions to the default table (log 6). -/
  statusMap : StatusMap
  deriving DecidableEq, Repr

/-- The response port of a step (R11, R36). `tx` is present when `tx_we` = 1 and holds `tx_data`; when `tx_we` = 0 the
spec says nothing of `tx_data` and the model holds nothing (log 20). -/
structure Response where
  rearm : Bool
  ackEn : Bool
  stop : Bool
  tx : Option Byte
  deriving DecidableEq, Repr

/-- A hook call that a step makes (R105): `rd(i)=v` or `wr(i,v)`. -/
inductive HookCall where
  | rd (i v : Byte)
  | wr (i v : Byte)
  deriving DecidableEq, Repr

/-- The control levels presented to the bus controller (R36, R295 c). -/
structure ControlLevels where
  en : Bool
  ie : Bool
  aa : Bool
  gcen : Bool
  addr : BusAddr
  deriving DecidableEq, Repr

/-- One item of the observable behaviour of a run (R295): a response, a hook call, or the control levels after a host
command. -/
inductive Obs where
  | response (r : Response)
  | hook (c : HookCall)
  | control (l : ControlLevels)
  deriving DecidableEq, Repr

/-- What an outside agent does next (R295, R296, R103; log 1). -/
inductive EnvMove where
  /-- The bus controller raises an event (R36). -/
  | raise (w : EventWord)
  /-- The host puts a command word on the command port (R94). -/
  | command (cmd : Byte)
  /-- An event and a command become ready together (R70, R258). -/
  | together (w : EventWord) (cmd : Byte)
  /-- The host sets or lifts HOSTMASK (R257). -/
  | setMask (held : Bool)
  /-- The hardware reset (R290). When it comes next it strikes at once, whatever event or command is ready. -/
  | hardReset
  /-- Nothing comes from outside until no event and no command is ready to be taken (log 12). -/
  | settle
  deriving DecidableEq, Repr

/-- What a bound handler does at its next call (R204, R205, R207; log 7, 8, 9). A write hook's answer carries no value:
there the byte is not used (R202). DESIGN CHOICE (log 31): no reply causes activity on this bus, which R206 forbids a handler
and R296 lists as assumed never. -/
inductive HookReply where
  /-- It returns; a read hook answers `v` on `rf_rd_data`. -/
  | returns (v : Byte)
  /-- It does not return (U8, R300). -/
  | hangs
  /-- It issues a host command from inside the step (U6, R206). -/
  | commands
  deriving DecidableEq, Repr

/-- The machine's faults. -/
inductive Fault where
  /-- Raised by SOR when a bound handler that it calls does not return: the step never completes and no response is issued
  (R205, R300, U8). Safe: a run that hangs has no later state. -/
  | handlerNeverReturns
  deriving DecidableEq, Repr

/-- The machine's refusals. -/
inductive Refusal where
  /-- An instruction with no meaning yet, refused in its arm of `exec`. Safe. -/
  | notModelled (mnemonic : String)
  /-- Raised by INIT with address 0, which the spec gives no meaning (R217, D15, U5). Safe: it is outside the domain. -/
  | initAddressZero
  /-- Raised by SOR when a handler issues a host command from inside the step, which the spec gives no meaning (R206, D17,
  U6). Safe: it is outside the domain. -/
  | commandInsideHandler
  deriving DecidableEq, Repr

/-- The whole state. -/
structure State where
  /-- `RXBUF[0..3]` (R21). -/
  rxbuf : RxBuf
  /-- `RXLEN` (R22). -/
  rxlen : RxLen
  /-- `TXPEND` (R23). -/
  txpend : Byte
  /-- `EN` (R30). -/
  en : Bool
  /-- `IE` (R31). -/
  ie : Bool
  /-- `AA` (R32). -/
  aa : Bool
  /-- `GCEN` (R34). -/
  gcen : Bool
  /-- `ADDR` (R33). -/
  addr : BusAddr
  /-- The ghost `PHASE` (R25). -/
  phase : Phase
  /-- Straps and `STATUS_MAP`, constants of the run (R35, R121). -/
  params : Params
  /-- The event port: `ev_valid`, and `status` and `data_in` when it is 1 (R36, R37 b). -/
  event : Option EventWord
  /-- The bus controller's transmit register (R36, R37 c). -/
  txReg : Byte
  /-- The command port: `cmd_valid`, and the word when it is 1 (R94). -/
  cmd : Option Byte
  /-- `HOSTMASK`, the host's (R257). -/
  hostMask : Bool
  /-- What the outside agents will do next, in order (log 1). -/
  moves : List EnvMove
  /-- What the bound handlers will do at their next calls, in order (log 7). -/
  replies : List HookReply
  /-- The observable behaviour so far, newest first (R295, log 21). -/
  log : List Obs
  /-- The model's own count of free values used (log 23). -/
  draws : Nat
  deriving DecidableEq, Repr

/-- The state after hardware reset (R39, R290), with the parameters of the run. `RXBUF`, `ADDR` and the transmit register
have no value in the spec: DESIGN CHOICE 0 (log 2, 3, 4). -/
def State.resetWith (p : Params) : State where
  rxbuf := ⟨0, 0, 0, 0⟩
  rxlen := 0
  txpend := Config.txpendReset
  en := false
  ie := false
  aa := false
  gcen := false
  addr := 0
  phase := .idle
  params := p
  event := none
  txReg := 0
  cmd := none
  hostMask := false
  moves := []
  replies := []
  log := []
  draws := 0

/-- The machine right after reset, with both hooks bound and the default `STATUS_MAP` (DESIGN CHOICE, log 5, log 6). -/
def State.reset : State := State.resetWith ⟨true, true, []⟩

end Sys2Proof.Machine
end

