-- ==== Sys2Proof/Machine/Flags.lean ====
section
/-! DEFINITION. The block has no status flag, condition code or predicate (10_state.md R28). What its rules compare and test
instead (40_classifier.md R128) is here, each condition once. -/

namespace Sys2Proof.Machine

/-- `RXLEN < 4`, the guard of `Append` (R140). -/
def rxHasRoom (s : State) : Bool := decide (s.rxlen < Config.rxCap)

/-- The engine takes events: `EN == 1` and `IE == 1` (R120). When it does not, it is inert (R270). -/
def engineEnabled (s : State) : Bool := s.en && s.ie

/-- The guard of the event step beside `ev_valid` (R120, R257): enabled, and not held off by the host. -/
def eventsTaken (s : State) : Bool := engineEnabled s && !s.hostMask

/-- The pending event, if it may be taken now (R120, R257). -/
def readyEvent (s : State) : Option EventWord := if eventsTaken s then s.event else none

/-- The hardware reset is the next move to come: it strikes now, before an event or a command that is ready (R290). -/
def resetStrikes (s : State) : Bool := decide (s.moves.head? = some .hardReset)

/-- The controller holds the clock line low: an event is pending and not yet answered (R37 b, R254). -/
def busHeld (s : State) : Bool := s.event.isSome

/-- The control levels as they stand (R36). -/
def controlLevels (s : State) : ControlLevels := ⟨s.en, s.ie, s.aa, s.gcen, s.addr⟩

/-- The 2-bit code of `PHASE` (R26). -/
def Phase.code : Phase → BitVec 2
  | .idle => 0b00
  | .receiving => 0b01
  | .txFirst => 0b10
  | .txSubsequent => 0b11

end Sys2Proof.Machine
end

