-- ==== Sys2Proof/Machine/Operands.lean ====
section
/-! DEFINITION. The operands of the block's operations: no operand is assembled, scaled or extended (30_encoding.md R97).
`data_in` and the INIT address come with the instruction (R93, R94); SOR's operands are read from `RXBUF` by length. -/

namespace Sys2Proof.Machine

/-- `RXBUF[k]` (R10, R21). There are four cells; the block reads cells 0 and 1 only. -/
def RxBuf.get (b : RxBuf) : Fin 4 → Byte
  | 0 => b.b0
  | 1 => b.b1
  | 2 => b.b2
  | 3 => b.b3

/-- `RXBUF[k] <- v` (R10), for the address `k` that `RXLEN` holds; `Append` never uses an address above 3 (R140). -/
def RxBuf.put (b : RxBuf) (k : RxLen) (v : Byte) : RxBuf :=
  if k = 0 then { b with b0 := v }
  else if k = 1 then { b with b1 := v }
  else if k = 2 then { b with b2 := v }
  else if k = 3 then { b with b3 := v }
  else b

/-- What the accumulated reception asks for (R95, R96, R98). -/
inductive Request where
  /-- Format RQ1: one byte, the index. -/
  | read (i : Byte)
  /-- Format RQ2: two bytes, the index and the value. -/
  | write (i v : Byte)
  /-- Any other length (R99 b, R163). -/
  | malformed
  deriving DecidableEq, Repr

/-- The decoding by length at a stop or restart (R98, R160): `index = RXBUF[0]`, `value = RXBUF[1]` (R97). -/
def request (s : State) : Request :=
  if s.rxlen = 1 then .read (s.rxbuf.get 0)
  else if s.rxlen = 2 then .write (s.rxbuf.get 0) (s.rxbuf.get 1)
  else .malformed

end Sys2Proof.Machine
end

