-- ==== Sys2Proof/Machine/Ops.lean ====
section
/-! DEFINITION. The named operations on the state that the operation rules are written with (00_scope.md R10): `Append`,
`TxStage`, `Respond`, `BusReset`, hook calls, and the hardware reset. -/

namespace Sys2Proof.Machine

/-- The two response constants (R11): `ACK = { rearm = 1, ack_en = 1, stop = 0 }`. -/
def Response.ack : Response := ⟨true, true, false, none⟩

/-- `ACK_STOP = { rearm = 1, ack_en = 1, stop = 1 }` (R11). -/
def Response.ackStop : Response := ⟨true, true, true, none⟩

/-- The transmit-register write travels with the response (R11): `tx_we = 1`, `tx_data = v`. -/
def Response.withTx (r : Response) (v : Byte) : Response := { r with tx := some v }

/-- `tx_we` (R36). -/
def Response.txWe (r : Response) : Bool := r.tx.isSome

/-- `PHASE <- p` (R26). -/
def setPhase (p : Phase) (s : State) : State := { s with phase := p }

/-- `RXLEN <- 0`, the buffer reset of the address-match events (R141, R181); the bytes stay (R141). -/
def clearRx (s : State) : State := { s with rxlen := 0 }

/-- `Append(b)` (R140): store at `RXBUF[RXLEN]` and count, or drop the byte when the buffer is full. -/
def append (b : Byte) (s : State) : State :=
  if rxHasRoom s then { s with rxbuf := s.rxbuf.put s.rxlen b, rxlen := s.rxlen + 1 } else s

/-- `TXPEND <- v` (R161). -/
def setTxpend (v : Byte) (s : State) : State := { s with txpend := v }

/-- `TxStage(v)` (R180): the bus controller's transmit register takes `v`; no register of the block changes. -/
def txStage (v : Byte) (s : State) : State := { s with txReg := v }

/-- Record an item of the observable behaviour (R295). -/
def observe (o : Obs) (s : State) : State := { s with log := o :: s.log }

/-- `rearm`: the event is acknowledged to the controller, which is the only way to clear it (R254, R261). -/
def clearEvent (s : State) : State := { s with event := none }

/-- `Respond(r)` (R10, R11, R36), the last action of every event step and the step's return (R261). -/
def respond (r : Response) (s : State) : State :=
  observe (.response r) (if r.rearm then clearEvent s else s)

/-- The argument of `BusReset`, a name for diagnostics; the block records none (R230, R251, D26). -/
inductive Cause where
  | busError
  | unhandled
  | lastByteAck
  | recvNack
  deriving DecidableEq, Repr

/-- `BusReset(cause)` (R230), the recovery action and the only exception entry of the block (R260): the response carries
`stop`, `PHASE` becomes Idle, nothing is saved or recorded, and control goes nowhere. -/
def busReset (_cause : Cause) (s : State) : State := respond .ackStop (setPhase .idle s)

/-- The end of DRN_W and DRN_G (R147, R148): the recovery action, under `RECVNACK_STOP` (R6, conflict C3). -/
def endReception (s : State) : State :=
  if Config.recvNackStop then busReset .recvNack s else respond .ack (setPhase .idle s)

/-- The host command port's strobe is consumed (R94). -/
def takeCommand (s : State) : State := { s with cmd := none }

/-- INIT's writes: `ADDR <- a`, `GCEN <- 1`, `AA <- 1`, `EN <- 1`, `IE <- 1` (R215). -/
def armController (a : BusAddr) (s : State) : State :=
  { s with addr := a, gcen := true, aa := true, en := true, ie := true }

/-- SHUTDOWN's writes: `EN <- 0`, `IE <- 0`, `AA <- 0` (R216). -/
def disableController (s : State) : State := { s with en := false, ie := false, aa := false }

/-- The control levels after a host command are observable (R295 c). -/
def observeControl (s : State) : State := observe (.control (controlLevels s)) s

/-- One free value is used up (log 23). -/
def nextDraw (s : State) : State := { s with draws := s.draws + 1 }

/-- Outcomes in sequence: what stops, stops. -/
def andThen {α β : Type} (o : Host.Outcome α Fault Refusal) (f : α → Host.Outcome β Fault Refusal) :
    Host.Outcome β Fault Refusal :=
  match o with
  | .next a => f a
  | .fault r => .fault r
  | .refused r => .refused r

/-- One synchronous exchange with a bound handler called with index `i` (R204, R205): the byte it answers and the state
after it. The answer is the next scripted reply, or, where none is scripted, a free value of a handler that returns
(log 7, log 8). -/
def hookExchange (i : Byte) (s : State) : Host.Outcome (Byte × State) Fault Refusal :=
  match s.replies with
  | [] => .next (Config.freeHookAnswer s.draws i, nextDraw s)
  | .returns v :: rest => .next (v, { s with replies := rest })
  | .hangs :: _ => .fault .handlerNeverReturns
  | .commands :: _ => .refused .commandInsideHandler

/-- The hardware reset (R290, R39): every piece of the block's state at its reset value, the pending event discarded, a new
run begun (R295). What the spec leaves unspecified is a free value (U1, U2); what is not the block's stays (log 14). -/
def hardReset (s : State) : State :=
  { s with
    rxbuf := ⟨Config.freeResetByte s.draws 0, Config.freeResetByte s.draws 1,
              Config.freeResetByte s.draws 2, Config.freeResetByte s.draws 3⟩
    rxlen := 0
    txpend := Config.txpendReset
    en := false
    ie := false
    aa := false
    gcen := false
    addr := Config.freeResetAddr s.draws
    phase := .idle
    event := none
    log := []
    draws := s.draws + 1 }

end Sys2Proof.Machine
end

