-- ==== Sys2Proof/Machine/HostCommands.lean ====
section
/-! DEFINITION. The host commands (45_host_commands.md): Initialization and Shutdown. They issue no response. -/

namespace Sys2Proof.Machine

/-- INIT `a` (R215, R218): legal in any state; address 0 has no meaning and is refused (R217). -/
def execInit (a : BusAddr) (s : State) : Host.Outcome State Fault Refusal :=
  if legalAddr a then .next (observeControl (setPhase .idle (armController a s)))
  else .refused .initAddressZero

/-- SHUTDOWN (R216): `ADDR`, `GCEN` and the data registers keep their values (R220). -/
def execShutdown (s : State) : Host.Outcome State Fault Refusal :=
  .next (observeControl (setPhase .idle (disableController s)))

end Sys2Proof.Machine
end

