-- ==== Sys2Proof/Machine/Reception.lean ====
section
/-! DEFINITION. The reception family (41_reception.md): address match for write, data received. -/

namespace Sys2Proof.Machine

/-- What the four write-side address matches do (R141 to R144): clear the length, Receiving, ACK. -/
def addrMatchWrite (s : State) : State := respond .ack (setPhase .receiving (clearRx s))

/-- What a received and acknowledged byte does (R145, R146). -/
def dataReceivedAck (d : Byte) (s : State) : State := respond .ack (setPhase .receiving (append d s))

/-- What a received and not acknowledged byte does (R147, R148): appended, reception over, bus reset; no hook call. -/
def dataReceivedNack (d : Byte) (s : State) : State := endReception (append d s)

/-- AMW (R141). -/
def execAmw (s : State) : Host.Outcome State Fault Refusal := .next (addrMatchWrite s)

/-- AMW_AL (R142, D8). -/
def execAmwAl (s : State) : Host.Outcome State Fault Refusal := .next (addrMatchWrite s)

/-- GCM (R143). -/
def execGcm (s : State) : Host.Outcome State Fault Refusal := .next (addrMatchWrite s)

/-- GCM_AL (R144, D8). -/
def execGcmAl (s : State) : Host.Outcome State Fault Refusal := .next (addrMatchWrite s)

/-- DRA_W (R145). -/
def execDraW (d : Byte) (s : State) : Host.Outcome State Fault Refusal := .next (dataReceivedAck d s)

/-- DRA_G (R146). -/
def execDraG (d : Byte) (s : State) : Host.Outcome State Fault Refusal := .next (dataReceivedAck d s)

/-- DRN_W (R147, conflicts C3 and C5). -/
def execDrnW (d : Byte) (s : State) : Host.Outcome State Fault Refusal := .next (dataReceivedNack d s)

/-- DRN_G (R148). -/
def execDrnG (d : Byte) (s : State) : Host.Outcome State Fault Refusal := .next (dataReceivedNack d s)

end Sys2Proof.Machine
end

