-- ==== Sys2Proof/Machine/Recovery.lean ====
section
/-! DEFINITION. The recovery family (46_recovery.md): bus error and unhandled status. The buffers are left alone (R233). -/

namespace Sys2Proof.Machine

/-- BERR (R231). -/
def execBerr (s : State) : Host.Outcome State Fault Refusal := .next (busReset .busError s)

/-- UNH (R232): all codes behave alike, and the code is not kept. -/
def execUnh (_code : EventCode) (s : State) : Host.Outcome State Fault Refusal := .next (busReset .unhandled s)

end Sys2Proof.Machine
end

