-- ==== Sys2Proof/Machine/Facade.lean ====
section
/-! DEFINITION. The Register File Façade (44_facade.md): two multiplexers controlled by the straps, the only way to the
virtual register space, with no storage of its own. -/

namespace Sys2Proof.Machine

/-- `RegRead(i)` (R201): one call of the bound hook and its answer, or 0x00 with no call. -/
def regRead (i : Byte) (s : State) : Host.Outcome (Byte × State) Fault Refusal :=
  if s.params.rdBound then
    andThen (hookExchange i s) fun (v, t) => .next (v, observe (.hook (.rd i v)) t)
  else
    .next (Config.unboundRead, s)

/-- `RegWrite(i, v)` (R202): one call of the bound hook, or nothing. The hook gives nothing back. -/
def regWrite (i v : Byte) (s : State) : Host.Outcome State Fault Refusal :=
  if s.params.wrBound then
    andThen (hookExchange i s) fun (_, t) => .next (observe (.hook (.wr i v)) t)
  else
    .next s

/-- The hook port's outputs in one step (R204). `rf_index` and `rf_wr_data` are present when a call drives them; the spec
says nothing of their levels otherwise (log 20). -/
structure HookPort where
  rfRdReq : Bool
  rfWrReq : Bool
  rfIndex : Option Byte
  rfWrData : Option Byte
  deriving DecidableEq, Repr

/-- The hook port during a step that makes the given call, or none (R204). -/
def hookPort : Option HookCall → HookPort
  | none => ⟨false, false, none, none⟩
  | some (.rd i _) => ⟨true, false, some i, none⟩
  | some (.wr i v) => ⟨false, true, some i, some v⟩

end Sys2Proof.Machine
end

