-- ==== Sys2Proof/Machine/StopRestart.lean ====
section
/-! DEFINITION. The dispatch family (42_dispatch.md): a stop or repeated start interprets the reception buffer. -/

namespace Sys2Proof.Machine

/-- What a request does to the registers behind the façade and to `TXPEND`, before the response (R161, R162, R163). -/
def dispatchRequest (r : Request) (s : State) : Host.Outcome State Fault Refusal :=
  match r with
  | .read i => andThen (regRead i s) fun (v, t) => .next (setTxpend v t)
  | .write i v => regWrite i v s
  | .malformed => .next s

/-- SOR (R160): dispatch on `RXLEN`, Idle, ACK after the hook has returned. The buffer is not cleared (R164). -/
def execSor (s : State) : Host.Outcome State Fault Refusal :=
  andThen (dispatchRequest (request s) s) fun t => .next (respond .ack (setPhase .idle t))

end Sys2Proof.Machine
end

