-- ==== Sys2Proof/Machine/Transmit.lean ====
section
/-! DEFINITION. The transmit family (43_transmit.md): address match for read, data sent. -/

namespace Sys2Proof.Machine

/-- Stage `TXPEND` and answer (R180, R181, R183): the transmit register is loaded before the response, which carries
`tx_we = 1`, `tx_data = TXPEND`. -/
def sendPending (p : Phase) (s : State) : State :=
  respond (Response.ack.withTx s.txpend) (setPhase p (txStage s.txpend s))

/-- What the two read-side address matches do (R181, R182, conflict C4). -/
def addrMatchRead (s : State) : State := sendPending .txFirst (clearRx s)

/-- AMR (R181). -/
def execAmr (s : State) : Host.Outcome State Fault Refusal := .next (addrMatchRead s)

/-- AMR_AL (R182). -/
def execAmrAl (s : State) : Host.Outcome State Fault Refusal := .next (addrMatchRead s)

/-- DSA (R183): the same byte again, with no hook call. -/
def execDsa (s : State) : Host.Outcome State Fault Refusal := .next (sendPending .txSubsequent s)

/-- DSN (R184): the normal end of a read. -/
def execDsn (s : State) : Host.Outcome State Fault Refusal := .next (respond .ack (setPhase .idle s))

/-- DSA_LAST (R185). -/
def execDsaLast (s : State) : Host.Outcome State Fault Refusal := .next (busReset .lastByteAck s)

end Sys2Proof.Machine
end

