-- ==== Sys2Proof/Machine/Dispatch.lean ====
section
/-! DEFINITION. One arm per instruction. -/

namespace Sys2Proof.Machine

def exec (i : Instr) (s : State) : Host.Outcome State Fault Refusal :=
  match i with
  | .berr => Sys2Proof.Machine.execBerr s
  | .unh code => Sys2Proof.Machine.execUnh code s
  | .amw => Sys2Proof.Machine.execAmw s
  | .amwAl => Sys2Proof.Machine.execAmwAl s
  | .gcm => Sys2Proof.Machine.execGcm s
  | .gcmAl => Sys2Proof.Machine.execGcmAl s
  | .draW d => Sys2Proof.Machine.execDraW d s
  | .drnW d => Sys2Proof.Machine.execDrnW d s
  | .draG d => Sys2Proof.Machine.execDraG d s
  | .drnG d => Sys2Proof.Machine.execDrnG d s
  | .sor => Sys2Proof.Machine.execSor s
  | .amr => Sys2Proof.Machine.execAmr s
  | .amrAl => Sys2Proof.Machine.execAmrAl s
  | .dsa => Sys2Proof.Machine.execDsa s
  | .dsn => Sys2Proof.Machine.execDsn s
  | .dsaLast => Sys2Proof.Machine.execDsaLast s
  | .init a => Sys2Proof.Machine.execInit a s
  | .shutdown => Sys2Proof.Machine.execShutdown s

end Sys2Proof.Machine
end

