-- ==== Sys2Proof/Machine/Agents.lean ====
section
/-! DEFINITION. Whose turn it is, and what each agent's move does (00_scope.md R7, 20_memory.md R70, 60_exceptions.md R257,
R267, 70_reset_and_hazards.md R295, R296). Step.lean only calls this file. -/

namespace Sys2Proof.Machine

/-- Who makes the next atomic step. -/
inductive Turn where
  /-- The engine answers the pending event (R120). -/
  | engine (w : EventWord)
  /-- The host's command is executed (R94). -/
  | host (cmd : Byte)
  /-- An event and a command are ready together: either may go first (R70). -/
  | race (w : EventWord) (cmd : Byte)
  /-- The reset strikes, or nothing is ready: the outside world moves (R290, log 1). -/
  | outside
  deriving DecidableEq, Repr

/-- Whose turn it is. A hardware reset that comes next goes before everything: it discards any pending event, one that is ready
to be taken included (R290); a `settle` before it lets what is ready go first (log 12). An event that may not be taken, because HOSTMASK holds it off (R257) or the engine is disabled (R120),
stays pending, since only its response clears it (R254); so does one that was raised while the engine was enabled and that a
SHUTDOWN overtakes, which a later INIT then lets the engine answer (DEDUCED, log 29). -/
def turn (s : State) : Turn :=
  if resetStrikes s then .outside
  else
    match readyEvent s, s.cmd with
    | some w, none => .engine w
    | none, some c => .host c
    | some w, some c => .race w c
    | none, none => .outside

/-- The event step (R120): classify the sampled status, perform the operation with the sampled `data_in`. The operation's
`Respond` clears the event (R254). -/
def runEvent (w : EventWord) (s : State) : Host.Outcome State Fault Refusal :=
  exec (decodeEvent s.params.statusMap w) s

/-- The host command's step (R94, R215, R216). -/
def runCommand (c : Byte) (s : State) : Host.Outcome State Fault Refusal :=
  exec (decodeCommand c) (takeCommand s)

/-- A command and an event that are ready together, in the order that the free value gives (R70, log 13). -/
def runRace (w : EventWord) (c : Byte) (s : State) : Host.Outcome State Fault Refusal :=
  if Config.freeCommandFirst s.draws then runCommand c (nextDraw s) else runEvent w (nextDraw s)

/-- The controller raises an event. -/
def EnvMove.isRaise : EnvMove → Bool
  | .raise _ => true
  | .together _ _ => true
  | .command _ | .setMask _ | .hardReset | .settle => false

/-- The next move and the moves left after it. While an event is pending the controller raises no other (R267 E2), so its
further events wait in their order and the host's moves and the reset go ahead (log 12). -/
def nextMove (pending : Bool) : List EnvMove → Option (EnvMove × List EnvMove)
  | [] => none
  | m :: ms =>
    if pending && m.isRaise then
      match nextMove pending ms with
      | none => none
      | some (x, rest) => some (x, m :: rest)
    else some (m, ms)

/-- The controller raises an event: it becomes pending (R254), but while `EN == 0` the controller raises none (R267 E1), so the
event is lost: no step takes it and nothing queues it (R120, D16, N10; log 11). -/
def raiseEvent (w : EventWord) (s : State) : State := { s with event := if s.en then some w else s.event }

/-- The host's command reaches its port (R94). -/
def placeCommand (c : Byte) (s : State) : State := { s with cmd := some c }

/-- The host sets or lifts its mask (R257). -/
def setHostMask (held : Bool) (s : State) : State := { s with hostMask := held }

/-- What a move does. -/
def applyMove (m : EnvMove) (s : State) : State :=
  match m with
  | .raise w => raiseEvent w s
  | .command c => placeCommand c s
  | .together w c => placeCommand c (raiseEvent w s)
  | .setMask b => setHostMask b s
  | .hardReset => hardReset s
  | .settle => s

/-- The outside world's turn: its next move, or nothing at all (the block idles; R270, R295). -/
def outsideMove (s : State) : State :=
  match nextMove s.event.isSome s.moves with
  | none => s
  | some (m, rest) => applyMove m { s with moves := rest }

/-- A reset that would strike now waits until what is ready has gone (log 16). -/
def settleFirst (s : State) : State :=
  { s with moves := if resetStrikes s then .settle :: s.moves else s.moves }

/-- Put a word on its port so that the very next step runs it (log 16): for an event, the engine enabled and unmasked and
no command waiting; for a command, no event pending; no reset strikes before it. -/
def loadPort (w : PortWord) (s : State) : State :=
  match w with
  | .event e => { settleFirst s with event := some e, cmd := none, en := true, ie := true, hostMask := false }
  | .command c => { settleFirst s with cmd := some c, event := none }

/-- Operations in sequence, as a trace gives them (R103). -/
def execAll : List Instr → State → Host.Outcome State Fault Refusal
  | [], s => .next s
  | i :: rest, s => andThen (exec i s) (execAll rest)

end Sys2Proof.Machine
end

