-- ==== Sys2Proof/Machine/Step.lean ====
section
/-! DEFINITION. One step of the closed machine. -/

namespace Sys2Proof.Machine

/-- One atomic step of whoever's turn it is (R8, R70, R120, R290). -/
def step (s : State) : Host.Outcome State Fault Refusal :=
  match turn s with
  | .engine w => runEvent w s
  | .host c => runCommand c s
  | .race w c => runRace w c s
  | .outside => .next (outsideMove s)

/-- The table word placed on its port, so that the very next step runs it (log 15, log 16). -/
def State.withFetchWord (s : State) (nbits w : Nat) : State :=
  if nbits ≤ 24 then
    match portWordOfBytes (tableBytes nbits w) with
    | .ok p => loadPort p s
    | .error _ => s
  else s

end Sys2Proof.Machine
end

