-- ==== Sys2Proof/Machine/Trace.lean ====
section
/-! DEFINITION. The trace syntax (30_encoding.md R103): one operation a line, its text, and the moves it stands for. -/

namespace Sys2Proof.Machine

/-- A line of a trace (R103). -/
inductive TraceLine where
  /-- An event or a host command. -/
  | op (i : Instr)
  /-- `RESET`, the hardware reset (R290). -/
  | reset
  /-- A comment; it stands for nothing. -/
  | comment (text : List Char)
  deriving DecidableEq, Repr

/-- The moves of the outside world that a line stands for. A RESET line comes after the steps of the lines before it, so
the reset waits for them (R103, R295; log 12). -/
def TraceLine.moves : TraceLine → List EnvMove
  | .op i => match encodePortWord i with
    | .event w => [.raise w]
    | .command c => [.command c]
  | .reset => [.settle, .hardReset]
  | .comment _ => []

/-- A program: the moves of its lines, in order (R295, R103). -/
def traceMoves (ls : List TraceLine) : List EnvMove := ls.flatMap TraceLine.moves

/-- A hex digit. -/
def hexDigit (n : Nat) : Char := ("0123456789ABCDEF".toList).getD n '0'

/-- The value of a hex digit, capitals or not. -/
def hexValue (c : Char) : Option Nat :=
  if '0'.toNat ≤ c.toNat ∧ c.toNat ≤ '9'.toNat then some (c.toNat - '0'.toNat)
  else if 'A'.toNat ≤ c.toNat ∧ c.toNat ≤ 'F'.toNat then some (c.toNat - 'A'.toNat + 10)
  else if 'a'.toNat ≤ c.toNat ∧ c.toNat ≤ 'f'.toNat then some (c.toNat - 'a'.toNat + 10)
  else none

/-- Two hex digits of a byte. -/
def hexByte (b : Byte) : List Char := [hexDigit (b.toNat / 16), hexDigit (b.toNat % 16)]

/-- `<byte> ::= 0x<two hex digits>` (R103). -/
def renderByte (b : Byte) : List Char := ['0', 'x'] ++ hexByte b

/-- The text of an operation (R103). -/
def renderInstr (i : Instr) : List Char :=
  match i with
  | .unh code => "UNH(".toList ++ renderByte (statusOfCode code) ++ [')']
  | .draW d | .drnW d | .draG d | .drnG d => i.mnemonic.toList ++ [' '] ++ renderByte d
  | .init a => "INIT ".toList ++ renderByte (a.setWidth 8)
  | .berr | .amw | .amwAl | .gcm | .gcmAl | .sor | .amr | .amrAl | .dsa | .dsn | .dsaLast | .shutdown => i.mnemonic.toList

/-- The text of a line (R103). -/
def TraceLine.render : TraceLine → List Char
  | .op i => renderInstr i
  | .reset => "RESET".toList
  | .comment t => [';', ' '] ++ t

/-- The encoding column of a line: `ss/dd`, with `--` for an ignored operand, or `HC:bb` (R103). -/
def encodingColumn (i : Instr) : List Char :=
  match encodePortWord i with
  | .command c => "HC:".toList ++ hexByte c
  | .event w => hexByte w.status ++ ['/'] ++ (match i with
    | .draW d | .drnW d | .draG d | .drnG d => hexByte d
    | .berr | .unh _ | .amw | .amwAl | .gcm | .gcmAl | .sor | .amr | .amrAl | .dsa | .dsn | .dsaLast | .init _
    | .shutdown => ['-', '-'])

/-- Read `0x<two hex digits>` and what follows. -/
def parseByte : List Char → Option (Byte × List Char)
  | '0' :: 'x' :: h :: l :: rest =>
    match hexValue h, hexValue l with
    | some a, some b => some (BitVec.ofNat 8 (16 * a + b), rest)
    | _, _ => none
  | _ => none

/-- A byte and nothing after it. -/
def parseOneByte (cs : List Char) : Option Byte :=
  match parseByte cs with
  | some (b, []) => some b
  | _ => none

/-- The part of a line before its comment, if it has one, without the blanks that end it. -/
def stripLine (cs : List Char) : List Char :=
  ((cs.takeWhile (fun c => c ≠ ';')).reverse.dropWhile (fun c => c = ' ')).reverse

/-- The operations written without an operand (R103). -/
def plainOps : List Instr :=
  [.berr, .amw, .amwAl, .gcm, .gcmAl, .sor, .amr, .amrAl, .dsa, .dsn, .dsaLast, .shutdown]

/-- The operation a mnemonic with an operand stands for (R103). -/
def parseWithByte (name : List Char) (b : Byte) : Option Instr :=
  if name = "DRA_W".toList then some (.draW b)
  else if name = "DRA_G".toList then some (.draG b)
  else if name = "DRN_W".toList then some (.drnW b)
  else if name = "DRN_G".toList then some (.drnG b)
  else if name = "INIT".toList then (if b.getLsbD 7 then none else some (.init (b.extractLsb' 0 7)))
  else none

/-- Read an operation (R103). DESIGN CHOICE (log 26): `UNH(b)` is a line only for a `b` whose `status[7:3]` is one of the
seventeen codes that R92 leaves to Unhandled, the low bits of `b` being ignored (R91). -/
def parseInstr (cs : List Char) : Option Instr :=
  match plainOps.find? (fun i => i.mnemonic.toList = cs) with
  | some i => some i
  | none =>
    let name := cs.takeWhile (fun c => c ≠ ' ' ∧ c ≠ '(')
    match cs.drop name.length with
    | ' ' :: operand => (parseOneByte operand).bind (parseWithByte name)
    | '(' :: operand =>
      match parseByte operand with
      | some (b, [')']) => if name = "UNH".toList ∧ unhandledCode (codeOf b) = true then some (.unh (codeOf b)) else none
      | _ => none
    | _ => none

/-- Read a line (R103); a comment may follow an operation (as in the programs of 95_test_vectors.md; log 26). -/
def parseLine (cs : List Char) : Option TraceLine :=
  let body := stripLine cs
  if body = [] then
    match cs.dropWhile (fun c => c ≠ ';') with
    | ';' :: ' ' :: t => some (.comment t)
    | ';' :: t => some (.comment t)
    | _ => none
  else if body = "RESET".toList then some .reset
  else (parseInstr body).map .op

end Sys2Proof.Machine
end

