-- ==== Sys2Proof/Machine/Wire.lean ====
section
/-! DEFINITION. Wire frames (format WF) and the events they raise (30_encoding.md R100 to R102, R104, R106). The bus
controller is outside the block (R4 b): this is the bridge the spec gives from frames to events, a function outside the
machine's step (log 25). -/

namespace Sys2Proof.Machine

/-- What the wire shows of a transfer (R101). The acknowledge bits that the device's own controller drives are not
elements: with the controller armed they are always given (R100). -/
inductive WireElem where
  /-- START, or RESTART when no STOP came before it. -/
  | start
  /-- `ADDR+W`: an address byte with direction write. -/
  | addrWrite (a : BusAddr)
  /-- `ADDR+R`: an address byte with direction read. -/
  | addrRead (a : BusAddr)
  /-- A data byte from the master. -/
  | data (b : Byte)
  /-- A byte of the device has been sent and the master answered ACK. -/
  | sentAck
  /-- A byte of the device has been sent and the master answered NACK. -/
  | sentNack
  /-- STOP. -/
  | stop
  /-- An illegal START or STOP position. -/
  | illegal
  deriving DecidableEq, Repr

/-- What the controller is addressed for: its bus state proper, as far as R102 needs it (R37 a). -/
inductive Addressed where
  | none
  | ownWrite
  | generalCall
  | read
  deriving DecidableEq, Repr

/-- The event an element raises, and what the controller is addressed for after it, with the device address `own`, enabled,
armed and recognising the general call, whose address is 0 (R101, R102). DESIGN CHOICE where R102's table has no row (log
25): a STOP, START or RESTART while the device is still addressed for read (no DSN before it, as after DSA) raises no event
and ends the addressing; an address that is not the device's ends it too; a data byte, or the answer to a sent byte, that
does not fit what the device is addressed for raises no event and changes nothing; an address with no START or RESTART just
before it is taken as one that has it. -/
def wireStep (own : BusAddr) (st : Addressed) (e : WireElem) : List Instr × Addressed :=
  match e with
  | .start => match st with
    | .ownWrite | .generalCall => ([.sor], .none)
    | .none | .read => ([], .none)
  | .addrWrite a => if a = own then ([.amw], .ownWrite) else if a = 0 then ([.gcm], .generalCall) else ([], .none)
  | .addrRead a => if a = own then ([.amr], .read) else ([], .none)
  | .data b => match st with
    | .ownWrite => ([.draW b], .ownWrite)
    | .generalCall => ([.draG b], .generalCall)
    | .none => ([], .none)
    | .read => ([], .read)
  | .sentAck => match st with
    | .read => ([.dsa], .read)
    | .none | .ownWrite | .generalCall => ([], st)
  | .sentNack => match st with
    | .read => ([.dsn], .none)
    | .none | .ownWrite | .generalCall => ([], st)
  | .stop => match st with
    | .ownWrite | .generalCall => ([.sor], .none)
    | .none | .read => ([], .none)
  | .illegal => ([.berr], .none)

/-- The events that a stretch of wire raises, in order (R102). -/
def wireEvents (own : BusAddr) : Addressed → List WireElem → List Instr
  | _, [] => []
  | st, e :: rest => (wireStep own st e).1 ++ wireEvents own (wireStep own st e).2 rest

/-- `START, ADDR+W, b1, …, bn, STOP` (R100, R104). -/
def writeFrame (a : BusAddr) (bs : List Byte) : List WireElem :=
  [.start, .addrWrite a] ++ bs.map .data ++ [.stop]

/-- `START, ADDR+R, n bytes, the last one NACKed, STOP`, `n` = `more` + 1 (R104). -/
def readFrame (a : BusAddr) (more : Nat) : List WireElem :=
  [.start, .addrRead a] ++ List.replicate more .sentAck ++ [.sentNack, .stop]

/-- The register-write frame of R100. -/
def registerWriteFrame (a : BusAddr) (i v : Byte) : List WireElem := writeFrame a [i, v]

/-- The register-read frame of R100, with a STOP before the second START. -/
def registerReadFrame (a : BusAddr) (i : Byte) : List WireElem := writeFrame a [i] ++ readFrame a 0

/-- The register-read frame of R100, with a RESTART. -/
def registerReadRestartFrame (a : BusAddr) (i : Byte) : List WireElem :=
  [.start, .addrWrite a, .data i] ++ readFrame a 0

/-- `WRITE_N b1..bn` (R104). -/
def writeN (bs : List Byte) : List Instr := .amw :: bs.map .draW ++ [.sor]

/-- `WRITE_REG i, v` (R104). -/
def writeReg (i v : Byte) : List Instr := writeN [i, v]

/-- `READ_REQ i` (R104). -/
def readReq (i : Byte) : List Instr := writeN [i]

/-- `PROBE` (R104). -/
def probe : List Instr := writeN []

/-- `READ_BYTES n` with `n` = `more` + 1 (R104). -/
def readBytes (more : Nat) : List Instr := .amr :: List.replicate more .dsa ++ [.dsn]

/-- `READ_BYTE` (R104). -/
def readByte : List Instr := readBytes 0

/-- `READ_REG i` (R104). -/
def readReg (i : Byte) : List Instr := readReq i ++ readByte

/-- `GC_WRITE i, v` (R104). -/
def gcWrite (i v : Byte) : List Instr := [.gcm, .draG i, .draG v, .sor]

/-- Where a well-formed event stream stands (R106). -/
inductive StreamPos where
  | between
  | ownWrite
  | generalCall
  | read
  deriving DecidableEq, Repr

/-- The grammar of R106, one event at a time; BERR may come at any point. Commands are not events of the stream. -/
def streamStep (p : StreamPos) (i : Instr) : Option StreamPos :=
  match i with
  | .berr => some .between
  | .amw => if p = .between then some .ownWrite else none
  | .gcm => if p = .between then some .generalCall else none
  | .draW _ => if p = .ownWrite then some .ownWrite else none
  | .draG _ => if p = .generalCall then some .generalCall else none
  | .sor => if p = .ownWrite ∨ p = .generalCall then some .between else none
  | .amr => if p = .between then some .read else none
  | .dsa => if p = .read then some .read else none
  | .dsn => if p = .read then some .between else none
  | .unh _ | .amwAl | .gcmAl | .drnW _ | .drnG _ | .amrAl | .dsaLast | .init _ | .shutdown => none

/-- Where a stream ends, if it follows the grammar (R106). -/
def streamEnd (p : StreamPos) : List Instr → Option StreamPos
  | [] => some p
  | i :: rest => match streamStep p i with
    | none => none
    | some q => streamEnd q rest

/-- A stream is well-formed: whole transactions and bus errors (R106). -/
def wellFormedStream (is : List Instr) : Bool := decide (streamEnd .between is = some .between)

end Sys2Proof.Machine
end

