-- ==== Sys2Proof/Safety.lean ====
section
/-! DEFINITION. What a claim about a run is stated with: the invariants (95_test_vectors.md 2.8), the environment's
assumptions E1 to E5 (60_exceptions.md R267), the cuts of a run (70_reset_and_hazards.md R295), readings of the log. -/

namespace Sys2Proof.Machine

/-- The register invariant: `RXLEN <= 4` (R22); `IE == EN` and `AA == EN` (R31, R32); while enabled, the device address is
legal and general calls are recognised (R33, R34, R215); with the read hook unbound `TXPEND` is 0x00 (95_test_vectors.md
2.8, item 7). -/
abbrev State.Inv (s : State) : Prop :=
  s.rxlen ≤ Config.rxCap ∧ s.ie = s.en ∧ s.aa = s.en ∧ (s.en = true → legalAddr s.addr = true ∧ s.gcen = true) ∧
    (s.params.rdBound = false → s.txpend = Config.unboundRead)

/-- An item of the log is one the block may issue: a response is acknowledge-and-rearm (R11), it never both stops and sends
(R268), and the control levels move together (R31, R32). -/
def Obs.lawful : Obs → Bool
  | .response r => r.rearm && r.ackEn && !(r.stop && r.txWe)
  | .hook _ => true
  | .control l => decide (l.ie = l.en) && decide (l.aa = l.en)

/-- Every item of the log is one the block may issue. -/
abbrev State.LogLawful (s : State) : Prop := s.log.all Obs.lawful = true

/-- The responses of a log. -/
def responses : List Obs → List Response
  | [] => []
  | .response r :: rest => r :: responses rest
  | .hook _ :: rest => responses rest
  | .control _ :: rest => responses rest

/-- The hook calls of a log. -/
def hookCalls : List Obs → List HookCall
  | [] => []
  | .hook c :: rest => c :: hookCalls rest
  | .response _ :: rest => hookCalls rest
  | .control _ :: rest => hookCalls rest

/-- The bytes sent to the master that a log shows (R295 a). -/
def sentBytes (l : List Obs) : List Byte := (responses l).filterMap Response.tx

/-- The read calls among hook calls. -/
def HookCall.isRead : HookCall → Bool
  | .rd _ _ => true
  | .wr _ _ => false

/-- The moves to come hold no hardware reset. -/
def noReset (ms : List EnvMove) : Bool :=
  ms.all fun m => match m with
    | .hardReset => false
    | .raise _ | .command _ | .together _ _ | .setMask _ | .settle => true

/-- The scripted handlers return (R205, R300: the contract of the handlers, an assumption). -/
def repliesReturn (rs : List HookReply) : Bool :=
  rs.all fun r => match r with
    | .returns _ => true
    | .hangs | .commands => false

/-- The events to come, as operations. DESIGN CHOICE (log 30): a hardware reset among the moves does not cut this stream. -/
def eventsToCome (m : StatusMap) : List EnvMove → List Instr
  | [] => []
  | .raise w :: rest => decodeEvent m w :: eventsToCome m rest
  | .together w _ :: rest => decodeEvent m w :: eventsToCome m rest
  | .command _ :: rest => eventsToCome m rest
  | .setMask _ :: rest => eventsToCome m rest
  | .settle :: rest => eventsToCome m rest
  | .hardReset :: rest => eventsToCome m rest

/-- E1, of a step from `s` to `t`: the controller raises an event only when `EN == 1` (R267). -/
def E1 (s t : State) : Prop := s.event = none → t.event.isSome = true → s.en = true

/-- E2, of a step from `s` to `t`: while an event is pending, and so has received no response yet, the controller raises no
other: its events to come are as many as before (R267). -/
def E2 (s t : State) : Prop :=
  s.event.isSome = true → eventsToCome s.params.statusMap t.moves = eventsToCome s.params.statusMap s.moves

/-- E3, of a step from `s` to `t`: a pending event is presented with the same `status` and `data_in` as long as it is pending;
a step samples them once (R267, R120). -/
def E3 (s t : State) : Prop := ∀ w, s.event = some w → t.event.isSome = true → t.event = some w

/-- A master-role code: one of 0x08 to 0x58 (R92, R251) that the table leaves to Unhandled (log 30). -/
def masterRoleCode (m : StatusMap) (status : Byte) : Bool :=
  decide (0x08 ≤ maskStatus status) && decide (maskStatus status ≤ 0x58) && decide (classify m status = .unh)

/-- The events that the controller presents or is still to present. -/
def presents (s : State) (w : EventWord) : Prop :=
  s.event = some w ∨ EnvMove.raise w ∈ s.moves ∨ ∃ c, EnvMove.together w c ∈ s.moves

/-- E4: no event presented is a master-role code (R267), and, as R127 adds on the same ground, none is an `_AL` event. -/
def E4 (s : State) : Prop :=
  ∀ w, presents s w → masterRoleCode s.params.statusMap w.status = false ∧
    classify s.params.statusMap w.status ∉ CoarseEvent.arbitrationLost.members

/-- E5: the event stream, from a state with no event pending such as reset, is well-formed (R267, R106; log 30). -/
def E5 (s : State) : Prop := wellFormedStream (eventsToCome s.params.statusMap s.moves) = true

/-- A cut is quiescent: no event and no command is pending (R295). -/
def quiescent (s : State) : Prop := s.event = none ∧ s.cmd = none

/-- A cut is between transactions: quiescent and Idle (R295). -/
def betweenTransactions (s : State) : Prop := quiescent s ∧ s.phase = .idle

/-- How many operations of a sequence, each with the state it is taken in, meet a condition: what a rule counts along a
stream (R165). -/
def countWhen (c : Instr → State → Bool) : List Instr → State → Nat
  | [], _ => 0
  | i :: rest, s =>
    (c i s).toNat + match exec i s with
      | .next t => countWhen c rest t
      | .fault _ | .refused _ => 0

/-- `k` steps, stopping at the first fault or refusal. -/
def runSteps : Nat → State → Host.Outcome State Fault Refusal
  | 0, s => .next s
  | k + 1, s => andThen (step s) (runSteps k)

/-- The states that steps reach from a reset with some parameters and some outside world (R295). -/
inductive Reachable : State → Prop where
  | reset (p : Params) (moves : List EnvMove) (replies : List HookReply) :
      Reachable { State.resetWith p with moves := moves, replies := replies }
  | step {s t : State} : Reachable s → step s = .next t → Reachable t

end Sys2Proof.Machine
end

