-- ==== Sys2Proof/Certificates/Slice0/Obligations.lean ====
section
/-! DEFINITION. The statements for the provers. A response is written out as `⟨rearm, ack_en, stop, tx⟩`, so that a statement
holds what rule R11 says and not what a definition happens to be. -/

open Sys2Proof Sys2Proof.Machine

/-! ## Encodings -/

/-- R91, R92: every status code is covered by exactly one of the thirty-two EV rows, and `Classify` by the default table
gives that row's event; so bits 2 to 0 are ignored and the map is total. -/
def Obligations.EveryStatusCodeHasExactlyOneRow : Prop :=
  ∀ status : Byte, (eventRows.filter (fun r => r.covers status)).map EventRow.name = [classifyDefault status]

/-- Words written out bit by bit from the encodings of R92, R94 and R103 decode to the instructions they stand for. That a word
is three bytes, the last one its port, is the model's layout (log 15). -/
def Obligations.WordsOfTheTableDecode : Prop :=
  decode [0b01100000, 0, 0] = .ok .amw ∧
  decode [0b10000011, 0x05, 0] = .ok (.draW 0x05) ∧
  decode [0b10011000, 0x10, 0] = .ok (.drnG 0x10) ∧
  decode [0b10100111, 0xFF, 0] = .ok .sor ∧
  decode [0b10101000, 0, 0] = .ok .amr ∧
  decode [0b11001001, 0, 0] = .ok .dsaLast ∧
  decode [0b00000111, 0, 0] = .ok .berr ∧
  decode [0b00111000, 0, 0] = .ok (.unh 0b00111) ∧
  decode [0b10100000, 0, 1] = .ok (.init 0x20) ∧
  decode [0b01111111, 0, 1] = .ok .shutdown

/-- Decode and encode agree on every well-formed instruction, with every operand at every value. -/
def Obligations.DecodeOfEncode : Prop :=
  ∀ i : Instr, i.wf = true → decode (encode i) = .ok i

/-- The other direction: a word re-encoded keeps every bit that R91, R93 and R94 have read. The bits those rules ignore
(`status[2:0]`, `data_in` at all but the four data-received events, SHUTDOWN's `addr`) are written 0, which is the encoder's
choice (log 27). -/
def Obligations.EncodeOfDecodeClearsIgnoredBits : Prop :=
  (∀ status d : Byte, ∃ d' : Byte,
    encodePortWord (decodeEvent [] ⟨status, d⟩) = .event ⟨status &&& 0xF8, d'⟩ ∧
    (status &&& 0xF8 ∈ [(0x80 : Byte), 0x88, 0x90, 0x98] → d' = d) ∧
    (status &&& 0xF8 ∉ [(0x80 : Byte), 0x88, 0x90, 0x98] → d' = 0)) ∧
  (∀ c : Byte, encodePortWord (decodeCommand c) = .command (if c.getLsbD 7 = true then c else 0))

/-- The model's word layout (log 15): three bytes, the third the port; everything else is rejected by name. -/
def Obligations.DecoderRejectsByName : Prop :=
  (∀ w d : Byte, ∃ i, decode [w, d, 0] = .ok i) ∧
  (∀ w : Byte, ∃ i, decode [w, 0, 1] = .ok i) ∧
  (∀ w d : Byte, d ≠ 0 → decode [w, d, 1] = .error .operandOnCommand) ∧
  (∀ w d p : Byte, p ≠ 0 → p ≠ 1 → decode [w, d, p] = .error .noSuchPort) ∧
  (∀ bs : List Byte, bs.length ≠ 3 → decode bs = .error .wrongLength)

/-- R93: `data_in` is the operand of the four data-received events, taken whole; every other event ignores it. -/
def Obligations.DataInIsOperandOfDataReceivedOnly : Prop :=
  ∀ (m : StatusMap) (status d : Byte),
    (classify m status = .draW → decodeEvent m ⟨status, d⟩ = .draW d) ∧
    (classify m status = .draG → decodeEvent m ⟨status, d⟩ = .draG d) ∧
    (classify m status = .drnW → decodeEvent m ⟨status, d⟩ = .drnW d) ∧
    (classify m status = .drnG → decodeEvent m ⟨status, d⟩ = .drnG d) ∧
    (classify m status ∉ [EventName.draW, .draG, .drnW, .drnG] →
      ∀ d', decodeEvent m ⟨status, d'⟩ = decodeEvent m ⟨status, d⟩)

/-- R121, R6: every total function from status codes to the sixteen events is a `STATUS_MAP` of the model, so that a
statement for all `statusMap` is a statement for all tables. -/
def Obligations.EveryStatusMapIsCovered : Prop :=
  ∀ f : Byte → EventName, ∃ m : StatusMap, ∀ status, classify m status = f status

/-- R103: the text of every well-formed operation, read back, is that operation. -/
def Obligations.TraceTextReadsBack : Prop :=
  ∀ i : Instr, i.wf = true → parseLine (TraceLine.op i).render = some (.op i)

/-! ## The event operations: effect, completion and frame in one equation -/

/-- R141 to R144: the four write-side address matches, each at its code, clear the length (the bytes keep their old contents),
PHASE becomes Receiving, the response is ACK; nothing else changes. -/
def Obligations.AddressMatchWriteClearsLength : Prop :=
  (∀ (s : State) (i : Instr), i ∈ [Instr.amw, .amwAl, .gcm, .gcmAl] →
    exec i s = .next { s with
      rxlen := 0, phase := .receiving, event := none, log := .response ⟨true, true, false, none⟩ :: s.log }) ∧
  (∀ status d : Byte, status &&& 0xF8 = 0x60 → decodeEvent [] ⟨status, d⟩ = .amw) ∧
  (∀ status d : Byte, status &&& 0xF8 = 0x68 → decodeEvent [] ⟨status, d⟩ = .amwAl) ∧
  (∀ status d : Byte, status &&& 0xF8 = 0x70 → decodeEvent [] ⟨status, d⟩ = .gcm) ∧
  (∀ status d : Byte, status &&& 0xF8 = 0x78 → decodeEvent [] ⟨status, d⟩ = .gcmAl)

/-- R145, R146 with R140: a received byte is stored at `RXBUF[RXLEN]` and counted while the length is below 4, and dropped
when it is 4; PHASE becomes Receiving and the response is ACK either way; nothing else changes. -/
def Obligations.DataReceivedAckAppends : Prop :=
  (∀ (s : State) (d : Byte) (i : Instr), i ∈ [Instr.draW d, .draG d] →
    (s.rxlen = 0 → exec i s = .next { s with
      rxbuf := { s.rxbuf with b0 := d }, rxlen := 1, phase := .receiving, event := none
      log := .response ⟨true, true, false, none⟩ :: s.log }) ∧
    (s.rxlen = 1 → exec i s = .next { s with
      rxbuf := { s.rxbuf with b1 := d }, rxlen := 2, phase := .receiving, event := none
      log := .response ⟨true, true, false, none⟩ :: s.log }) ∧
    (s.rxlen = 2 → exec i s = .next { s with
      rxbuf := { s.rxbuf with b2 := d }, rxlen := 3, phase := .receiving, event := none
      log := .response ⟨true, true, false, none⟩ :: s.log }) ∧
    (s.rxlen = 3 → exec i s = .next { s with
      rxbuf := { s.rxbuf with b3 := d }, rxlen := 4, phase := .receiving, event := none
      log := .response ⟨true, true, false, none⟩ :: s.log }) ∧
    (4 ≤ s.rxlen → exec i s = .next { s with
      phase := .receiving, event := none, log := .response ⟨true, true, false, none⟩ :: s.log })) ∧
  (∀ status d : Byte, status &&& 0xF8 = 0x80 → decodeEvent [] ⟨status, d⟩ = .draW d) ∧
  (∀ status d : Byte, status &&& 0xF8 = 0x90 → decodeEvent [] ⟨status, d⟩ = .draG d)

/-- R147, R148 with R140: the byte is appended exactly as at DRA, reception is over (PHASE Idle), the response is ACK_STOP,
and no hook is called; nothing else changes. -/
def Obligations.DataReceivedNackAppendsAndResetsTheBus : Prop :=
  (∀ (s : State) (d : Byte) (i : Instr), i ∈ [Instr.drnW d, .drnG d] →
    (s.rxlen = 0 → exec i s = .next { s with
      rxbuf := { s.rxbuf with b0 := d }, rxlen := 1, phase := .idle, event := none
      log := .response ⟨true, true, true, none⟩ :: s.log }) ∧
    (s.rxlen = 1 → exec i s = .next { s with
      rxbuf := { s.rxbuf with b1 := d }, rxlen := 2, phase := .idle, event := none
      log := .response ⟨true, true, true, none⟩ :: s.log }) ∧
    (s.rxlen = 2 → exec i s = .next { s with
      rxbuf := { s.rxbuf with b2 := d }, rxlen := 3, phase := .idle, event := none
      log := .response ⟨true, true, true, none⟩ :: s.log }) ∧
    (s.rxlen = 3 → exec i s = .next { s with
      rxbuf := { s.rxbuf with b3 := d }, rxlen := 4, phase := .idle, event := none
      log := .response ⟨true, true, true, none⟩ :: s.log }) ∧
    (4 ≤ s.rxlen → exec i s = .next { s with
      phase := .idle, event := none, log := .response ⟨true, true, true, none⟩ :: s.log })) ∧
  (∀ status d : Byte, status &&& 0xF8 = 0x88 → decodeEvent [] ⟨status, d⟩ = .drnW d) ∧
  (∀ status d : Byte, status &&& 0xF8 = 0x98 → decodeEvent [] ⟨status, d⟩ = .drnG d)

/-- R161 with R201: a read request. With the read hook bound (here, answering `v`), one call with `RXBUF[0]`, and `TXPEND`
takes the answer whatever it held; with the hook unbound, `TXPEND` becomes 0x00 and no call is made. -/
def Obligations.ReadRequestStagesTheAnswer : Prop :=
  (∀ (s : State) (v : Byte) (rest : List HookReply),
    s.rxlen = 1 → s.params.rdBound = true → s.replies = .returns v :: rest →
    exec .sor s = .next { s with
      txpend := v, replies := rest, phase := .idle, event := none
      log := .response ⟨true, true, false, none⟩ :: .hook (.rd s.rxbuf.b0 v) :: s.log }) ∧
  (∀ s : State, s.rxlen = 1 → s.params.rdBound = false →
    exec .sor s = .next { s with
      txpend := 0x00, phase := .idle, event := none, log := .response ⟨true, true, false, none⟩ :: s.log })

/-- R161 with R207, no answer scripted: the model takes a free value for the answer (log 7), and this holds for every value
it may have. -/
def Obligations.ReadRequestStagesAFreeAnswer : Prop :=
  ∀ s : State, s.rxlen = 1 → s.params.rdBound = true → s.replies = [] → ∃ v : Byte,
    exec .sor s = .next { s with
      txpend := v, phase := .idle, event := none, draws := s.draws + 1
      log := .response ⟨true, true, false, none⟩ :: .hook (.rd s.rxbuf.b0 v) :: s.log }

/-- R162 with R202: a write request. With the write hook bound (here, returning), one call with exactly
`(RXBUF[0], RXBUF[1])`; with the hook unbound, the pair is discarded and no call is made. `TXPEND` and every other register
unchanged either way. -/
def Obligations.WriteRequestCallsTheWriteHook : Prop :=
  (∀ (s : State) (v : Byte) (rest : List HookReply),
    s.rxlen = 2 → s.params.wrBound = true → s.replies = .returns v :: rest →
    exec .sor s = .next { s with
      replies := rest, phase := .idle, event := none
      log := .response ⟨true, true, false, none⟩ :: .hook (.wr s.rxbuf.b0 s.rxbuf.b1) :: s.log }) ∧
  (∀ s : State, s.rxlen = 2 → s.params.wrBound = false →
    exec .sor s = .next { s with
      phase := .idle, event := none, log := .response ⟨true, true, false, none⟩ :: s.log })

/-- R163, R98: at SOR with length 0, 3 or 4 nothing is called and `TXPEND` is unchanged, ACK and Idle all the same; and a
whole transaction of any number of bytes other than 1 or 2 ends that way, whatever the bytes, the length saturating at 4. -/
def Obligations.MalformedTransactionIsSilent : Prop :=
  (∀ s : State, s.rxlen = 0 ∨ s.rxlen = 3 ∨ s.rxlen = 4 →
    exec .sor s = .next { s with
      phase := .idle, event := none, log := .response ⟨true, true, false, none⟩ :: s.log }) ∧
  (∀ (s : State) (bs : List Byte), bs.length ≠ 1 → bs.length ≠ 2 →
    ∃ t, execAll (writeN bs) s = .next t ∧ hookCalls t.log = hookCalls s.log ∧ t.txpend = s.txpend ∧
      t.rxlen.toNat = min 4 bs.length ∧ t.phase = .idle ∧
      responses t.log = List.replicate (bs.length + 2) ⟨true, true, false, none⟩ ++ responses s.log)

/-- SOR, encoded 0xA0, completes in every state whose scripted handlers keep their contract (R205, an assumption: log 8). -/
def Obligations.SorCompletesWhenHandlersReturn : Prop :=
  (∀ s : State, repliesReturn s.replies = true → ∃ t, exec .sor s = .next t ∧
    t.rxbuf = s.rxbuf ∧ t.rxlen = s.rxlen ∧ t.phase = .idle ∧ t.event = none) ∧
  (∀ status d : Byte, status &&& 0xF8 = 0xA0 → decodeEvent [] ⟨status, d⟩ = .sor)

/-- Where SOR stops, and with what: a fault exactly when it calls a bound handler that does not return (U8, R300: the step never
completes), a refusal exactly when it calls one that issues a host command (U6, R206), no other fault and no other refusal; and
in every other state it answers a next state. The model's choice of form: log 8, log 9. -/
def Obligations.SorStopsOnlyOnAMisbehavingHandler : Prop :=
  ∀ s : State,
    (∀ f, exec .sor s = .fault f ↔ f = .handlerNeverReturns ∧ s.replies.head? = some .hangs ∧
      (s.rxlen = 1 ∧ s.params.rdBound = true ∨ s.rxlen = 2 ∧ s.params.wrBound = true)) ∧
    (∀ r, exec .sor s = .refused r ↔ r = .commandInsideHandler ∧ s.replies.head? = some .commands ∧
      (s.rxlen = 1 ∧ s.params.rdBound = true ∨ s.rxlen = 2 ∧ s.params.wrBound = true)) ∧
    ((∃ t, exec .sor s = .next t) ↔
      ¬ ((s.replies.head? = some .hangs ∨ s.replies.head? = some .commands) ∧
        (s.rxlen = 1 ∧ s.params.rdBound = true ∨ s.rxlen = 2 ∧ s.params.wrBound = true)))

/-- R181, R182 with R180: the length becomes 0, the transmit register takes `TXPEND`, which is not consumed, PHASE becomes
TxFirst, and the response is ACK with `tx_we = 1`, `tx_data = TXPEND`; no hook is called. -/
def Obligations.AddressMatchReadSendsTxpend : Prop :=
  (∀ (s : State) (i : Instr), i ∈ [Instr.amr, .amrAl] →
    exec i s = .next { s with
      rxlen := 0, txReg := s.txpend, phase := .txFirst, event := none
      log := .response ⟨true, true, false, some s.txpend⟩ :: s.log }) ∧
  (∀ status d : Byte, status &&& 0xF8 = 0xA8 → decodeEvent [] ⟨status, d⟩ = .amr) ∧
  (∀ status d : Byte, status &&& 0xF8 = 0xB0 → decodeEvent [] ⟨status, d⟩ = .amrAl)

/-- R183 with R180: the same byte again, PHASE TxSubsequent, nothing else changed. -/
def Obligations.DataSentAckSendsTxpendAgain : Prop :=
  (∀ s : State, exec .dsa s = .next { s with
      txReg := s.txpend, phase := .txSubsequent, event := none
      log := .response ⟨true, true, false, some s.txpend⟩ :: s.log }) ∧
  (∀ status d : Byte, status &&& 0xF8 = 0xB8 → decodeEvent [] ⟨status, d⟩ = .dsa)

/-- R184: the end of a read: ACK, PHASE Idle, no register changed, nothing staged, no bus reset. -/
def Obligations.DataSentNackEndsTheRead : Prop :=
  (∀ s : State, exec .dsn s = .next { s with
      phase := .idle, event := none, log := .response ⟨true, true, false, none⟩ :: s.log }) ∧
  (∀ status d : Byte, status &&& 0xF8 = 0xC0 → decodeEvent [] ⟨status, d⟩ = .dsn)

/-- R185, R231, R232 with R230: the recovery operations answer ACK_STOP and go to Idle from every state, and change nothing
else: nothing saved, nothing recorded, no hook called. -/
def Obligations.RecoveryAnswersAckStopAndIdles : Prop :=
  (∀ (s : State) (code : EventCode) (i : Instr), i ∈ [Instr.dsaLast, .berr, .unh code] →
    exec i s = .next { s with
      phase := .idle, event := none, log := .response ⟨true, true, true, none⟩ :: s.log }) ∧
  (∀ status d : Byte, status &&& 0xF8 = 0xC8 → decodeEvent [] ⟨status, d⟩ = .dsaLast) ∧
  (∀ status d : Byte, status &&& 0xF8 = 0x00 → decodeEvent [] ⟨status, d⟩ = .berr) ∧
  (∀ status d : Byte, status &&& 0xF8 ∈ [(0x08 : Byte), 0x10, 0x18, 0x20, 0x28, 0x30, 0x38, 0x40, 0x48, 0x50, 0x58,
    0xD0, 0xD8, 0xE0, 0xE8, 0xF0, 0xF8] → decodeEvent [] ⟨status, d⟩ = .unh (status.extractLsb' 3 5))

/-! ## The host commands -/

/-- R215, R218: INIT, encoded `1aaaaaaa`, with an address in 1 to 127, in any state, writes the five control fields and sets
PHASE Idle; the data registers are kept and no response is issued (the log gains the control levels, R295 c). -/
def Obligations.InitArmsTheController : Prop :=
  (∀ (s : State) (a : BusAddr), 1 ≤ a.toNat → a.toNat ≤ 127 →
    exec (.init a) s = .next { s with
      addr := a, gcen := true, aa := true, en := true, ie := true, phase := .idle
      log := .control ⟨true, true, true, true, a⟩ :: s.log }) ∧
  (∀ a : BusAddr, decodeCommand ((1 : BitVec 1) ++ a) = .init a)

/-- R217: INIT with address 0 has no meaning and the model refuses it. -/
def Obligations.InitZeroIsRefused : Prop :=
  ∀ s : State, exec (.init 0) s = .refused .initAddressZero

/-- R216: SHUTDOWN, encoded `0xxxxxxx`, clears EN, IE and AA and sets PHASE Idle; ADDR, GCEN and the data registers keep
their values. -/
def Obligations.ShutdownDisablesTheController : Prop :=
  (∀ s : State, exec .shutdown s = .next { s with
      en := false, ie := false, aa := false, phase := .idle
      log := .control ⟨false, false, false, s.gcen, s.addr⟩ :: s.log }) ∧
  (∀ x : BitVec 7, decodeCommand ((0 : BitVec 1) ++ x) = .shutdown)

/-- R294, R220: a read straight after a shutdown and a re-initialisation sends the byte staged before the shutdown. -/
def Obligations.StagedByteSurvivesShutdownAndInit : Prop :=
  ∀ (s : State) (a : BusAddr), a ≠ 0 → ∃ t, execAll [.shutdown, .init a, .amr] s = .next t ∧
    t.rxbuf = s.rxbuf ∧ t.txpend = s.txpend ∧ sentBytes t.log = s.txpend :: sentBytes s.log ∧
    t.addr = a ∧ t.en = true ∧ t.ie = true ∧ t.aa = true ∧ t.gcen = true

/-! ## Rules over all operations -/

/-- R24, R29, R264: the control bits and the configuration are written by host commands alone, and no event operation touches
the host's mask or command port, or the moves to come. -/
def Obligations.EventOperationsKeepControlState : Prop :=
  ∀ (i : Instr) (s t : State), i.isCommand = false → exec i s = .next t →
    t.en = s.en ∧ t.ie = s.ie ∧ t.aa = s.aa ∧ t.gcen = s.gcen ∧ t.addr = s.addr ∧ t.params = s.params ∧
    t.hostMask = s.hostMask ∧ t.cmd = s.cmd ∧ t.moves = s.moves

/-- R220, R24: neither command writes the data registers, and neither answers an event, calls a hook or reaches the transmit
register. -/
def Obligations.HostCommandsKeepDataRegisters : Prop :=
  ∀ (i : Instr) (s t : State), i.isCommand = true → exec i s = .next t →
    t.rxbuf = s.rxbuf ∧ t.rxlen = s.rxlen ∧ t.txpend = s.txpend ∧ t.txReg = s.txReg ∧ t.event = s.event ∧
    t.params = s.params ∧ t.replies = s.replies ∧ t.hostMask = s.hostMask ∧
    responses t.log = responses s.log ∧ hookCalls t.log = hookCalls s.log

/-- R26: the 2-bit codes of PHASE, and the PHASE each operation sets, whatever its old value. -/
def Obligations.PhaseAfterEachOperation : Prop :=
  Phase.idle.code = 0b00 ∧ Phase.receiving.code = 0b01 ∧ Phase.txFirst.code = 0b10 ∧ Phase.txSubsequent.code = 0b11 ∧
  ∀ (i : Instr) (s t : State), exec i s = .next t →
    t.phase = match i with
      | .amw | .amwAl | .gcm | .gcmAl | .draW _ | .draG _ => .receiving
      | .amr | .amrAl => .txFirst
      | .dsa => .txSubsequent
      | .drnW _ | .drnG _ | .sor | .dsn | .dsaLast | .berr | .unh _ | .init _ | .shutdown => .idle

/-- Every event operation issues exactly one response, with `rearm` and `ack_en` (R11); `stop` exactly for BERR, UNH, DSA_LAST,
DRN_W, DRN_G; `tx_we` exactly for AMR, AMR_AL, DSA, with `tx_data = TXPEND`: R268 and R269, which the spec derives from the
operation rules. The event is cleared (R254). -/
def Obligations.ResponseOfEachEventOperation : Prop :=
  ∀ (i : Instr) (s t : State), i.isCommand = false → exec i s = .next t →
    t.event = none ∧ ∃ r, responses t.log = r :: responses s.log ∧ r.rearm = true ∧ r.ackEn = true ∧
      r.stop = (match i with
        | .berr | .unh _ | .dsaLast | .drnW _ | .drnG _ => true
        | .amw | .amwAl | .gcm | .gcmAl | .draW _ | .draG _ | .sor | .amr | .amrAl | .dsa | .dsn | .init _
        | .shutdown => false) ∧
      r.tx = (match i with
        | .amr | .amrAl | .dsa => some s.txpend
        | .berr | .unh _ | .dsaLast | .drnW _ | .drnG _ | .amw | .amwAl | .gcm | .gcmAl | .draW _ | .draG _ | .sor
        | .dsn | .init _ | .shutdown => none)

/-- Over any stream of operations the read calls are the SORs taken with `RXLEN == 1` and `RD_BOUND == 1`, the write calls
those with `RXLEN == 2` and `WR_BOUND == 1`; `countWhen` counts them along the run. R165, which the spec derives from R160. -/
def Obligations.HookCallsAreTheDispatchedRequests : Prop :=
  ∀ (is : List Instr) (s t : State), execAll is s = .next t →
    ((hookCalls t.log).filter HookCall.isRead).length =
      ((hookCalls s.log).filter HookCall.isRead).length +
        countWhen (fun i u => decide (i = .sor ∧ u.rxlen = 1 ∧ u.params.rdBound = true)) is s ∧
    ((hookCalls t.log).filter (fun c => !c.isRead)).length =
      ((hookCalls s.log).filter (fun c => !c.isRead)).length +
        countWhen (fun i u => decide (i = .sor ∧ u.rxlen = 2 ∧ u.params.wrBound = true)) is s

/-- R204, R165: an operation makes at most one hook call; on the hook port the read request is asserted only with the read hook
bound, the write request only with the write hook bound, never both, and the index is `RXBUF[0]`. -/
def Obligations.HookPortRequestsOnlyWhenBound : Prop :=
  ∀ (i : Instr) (s t : State), exec i s = .next t →
    hookCalls t.log = hookCalls s.log ∨
    ∃ c, hookCalls t.log = c :: hookCalls s.log ∧ (hookPort (some c)).rfIndex = some s.rxbuf.b0 ∧
      ((hookPort (some c)).rfRdReq = true → s.params.rdBound = true) ∧
      ((hookPort (some c)).rfWrReq = true → s.params.wrBound = true) ∧
      ¬ ((hookPort (some c)).rfRdReq = true ∧ (hookPort (some c)).rfWrReq = true)

/-- R23: `TXPEND` is written only by SOR with `RXLEN == 1`. -/
def Obligations.TxpendIsWrittenByReadRequestsOnly : Prop :=
  ∀ (i : Instr) (s t : State), exec i s = .next t → t.txpend ≠ s.txpend → i = .sor ∧ s.rxlen = 1

/-- R22: `RXLEN` becomes 0 at the six address-match events, is incremented by the data-received events when below 4, and is
changed by nothing else. -/
def Obligations.RxlenAfterEachOperation : Prop :=
  ∀ (i : Instr) (s t : State), exec i s = .next t →
    t.rxlen.toNat = match i with
      | .amw | .amwAl | .gcm | .gcmAl | .amr | .amrAl => 0
      | .draW _ | .draG _ | .drnW _ | .drnG _ => if s.rxlen.toNat < 4 then s.rxlen.toNat + 1 else s.rxlen.toNat
      | .sor | .dsa | .dsn | .dsaLast | .berr | .unh _ | .init _ | .shutdown => s.rxlen.toNat

/-- R21: a cell of `RXBUF` is written only by the data-received events, with the received byte, and only at `RXLEN < 4`. -/
def Obligations.RxbufIsWrittenAtRxlenOnly : Prop :=
  ∀ (i : Instr) (s t : State) (k : Fin 4), exec i s = .next t → t.rxbuf.get k ≠ s.rxbuf.get k →
    k.val = s.rxlen.toNat ∧ ∃ d, t.rxbuf.get k = d ∧ i ∈ [Instr.draW d, .draG d, .drnW d, .drnG d]

/-- SOR does not clear the buffer, so two SOR events with no address match between them dispatch the same request twice:
R164, which the spec derives from R160 and R22. -/
def Obligations.SorTwiceDispatchesTwice : Prop :=
  (∀ s t : State, exec .sor s = .next t → t.rxbuf = s.rxbuf ∧ t.rxlen = s.rxlen) ∧
  (∀ s t : State, execAll [.sor, .sor] s = .next t → s.rxlen = 1 → s.params.rdBound = true →
    ∃ v w, hookCalls t.log = .rd s.rxbuf.b0 w :: .rd s.rxbuf.b0 v :: hookCalls s.log ∧ t.txpend = w) ∧
  (∀ s t : State, execAll [.sor, .sor] s = .next t → s.rxlen = 2 → s.params.wrBound = true →
    hookCalls t.log = .wr s.rxbuf.b0 s.rxbuf.b1 :: .wr s.rxbuf.b0 s.rxbuf.b1 :: hookCalls s.log)

/-! ## Transactions (R98, R100, R102, R104, R106) -/

/-- R162, R104: for all `(i, v)` the transaction WRITE_REG calls the bound write hook with exactly `(i, v)` exactly once, and
answers its four events with ACK; `TXPEND` is not refreshed.
That the handlers return is an assumption, and that an unscripted one does is the model's (R205, log 8). -/
def Obligations.WriteTransactionCallsTheHookOnce : Prop :=
  ∀ (s : State) (i v : Byte), s.params.wrBound = true → repliesReturn s.replies = true →
    ∃ t, execAll (writeReg i v) s = .next t ∧ hookCalls t.log = .wr i v :: hookCalls s.log ∧
      responses t.log = List.replicate 4 ⟨true, true, false, none⟩ ++ responses s.log ∧
      t.txpend = s.txpend ∧ t.phase = .idle

/-- R161, R104: for every `i` the transaction READ_REG calls the bound read hook with `i` once and sends its answer to the
master, once. -/
def Obligations.ReadTransactionSendsTheHooksAnswer : Prop :=
  ∀ (s : State) (i v : Byte) (rest : List HookReply), s.params.rdBound = true → s.replies = .returns v :: rest →
    ∃ t, execAll (readReg i) s = .next t ∧ hookCalls t.log = .rd i v :: hookCalls s.log ∧
      sentBytes t.log = v :: sentBytes s.log ∧ t.txReg = v ∧ t.phase = .idle

/-- R186, R104: a master that reads `n` bytes receives `n` copies of `TXPEND`, and no hook is called. -/
def Obligations.ReadBytesSendsCopiesOfTxpend : Prop :=
  ∀ (s : State) (more : Nat), ∃ t, execAll (readBytes more) s = .next t ∧
    sentBytes t.log = List.replicate (more + 1) s.txpend ++ sentBytes s.log ∧
    hookCalls t.log = hookCalls s.log ∧ t.txpend = s.txpend ∧ t.phase = .idle

/-- R143, R146, R308: a general-call write is dispatched identically to an addressed write: the whole state is the same. -/
def Obligations.GeneralCallWriteIsAnAddressedWrite : Prop :=
  ∀ (s : State) (i v : Byte), execAll (gcWrite i v) s = execAll (writeReg i v) s

/-- R102, R104: the wire frames of R100 raise the events of the pseudo-instructions, for every device address and every
operand; and the expansions follow the grammar of R106. -/
def Obligations.FramesRaiseTheExpansions : Prop :=
  (∀ (a : BusAddr) (bs : List Byte),
    wireEvents a .none (writeFrame a bs) = writeN bs ∧ wellFormedStream (writeN bs) = true) ∧
  (∀ (a : BusAddr) (more : Nat),
    wireEvents a .none (readFrame a more) = readBytes more ∧ wellFormedStream (readBytes more) = true) ∧
  (∀ (a : BusAddr) (i : Byte),
    wireEvents a .none (registerReadFrame a i) = readReg i ∧ wireEvents a .none (registerReadRestartFrame a i) = readReg i) ∧
  (∀ (a : BusAddr) (i v : Byte), a ≠ 0 →
    wireEvents a .none (writeFrame 0 [i, v]) = gcWrite i v ∧ wellFormedStream (gcWrite i v) = true)

/-- R295, R106: a well-formed stream taken from Idle ends in Idle: a cut between transactions is one where PHASE is Idle. -/
def Obligations.WellFormedStreamEndsIdle : Prop :=
  ∀ (is : List Instr) (s t : State), wellFormedStream is = true → s.phase = .idle → execAll is s = .next t →
    t.phase = .idle

/-! ## The step -/

/-- R120: an event that is pending while the engine is enabled, unmasked, and no command waits, is classified and its
operation performed; the step adds nothing around it (the operation's response clears the event). A hardware reset that
strikes just then goes first (ResetStrikesWhateverIsPending). -/
def Obligations.StepRunsTheDecodedEvent : Prop :=
  ∀ (s : State) (w : EventWord), s.event = some w → s.en = true → s.ie = true → s.hostMask = false → s.cmd = none →
    resetStrikes s = false → step s = exec (decodeEvent s.params.statusMap w) s

/-- R94: a command that waits while no event is ready is decoded and executed; the step takes the word off the port. A
hardware reset that strikes just then goes first (ResetStrikesWhateverIsPending). -/
def Obligations.StepRunsTheDecodedCommand : Prop :=
  ∀ (s : State) (c : Byte), s.cmd = some c →
    (s.event = none ∨ s.en = false ∨ s.ie = false ∨ s.hostMask = true) → resetStrikes s = false →
    step s = exec (decodeCommand c) { s with cmd := none }

/-- The host's fetch (log 15, log 16), with the default table: the table word is the instruction that the very next step
runs; a hardware reset that would strike before it waits. -/
def Obligations.FetchedWordIsRun : Prop :=
  ∀ (s : State) (nbits w : Nat) (i : Instr), s.params.statusMap = [] → decodeTableWord nbits w = some i →
    (i.isCommand = false → step (s.withFetchWord nbits w) = exec i (s.withFetchWord nbits w)) ∧
    (i.isCommand = true → step (s.withFetchWord nbits w) = exec i { settleFirst s with cmd := none, event := none })

/-- R120 with D16: while `EN == 0` or `IE == 0` a pending event causes no step, so that with no host command and no move to come
the state does not change. An event that comes while `EN == 0` is raised by no controller (E1) and is lost: that it never
becomes pending is the model's choice (log 11). -/
def Obligations.DisabledEngineTakesNoEvent : Prop :=
  (∀ (s : State) (w : EventWord), s.event = some w → (s.en = false ∨ s.ie = false) → s.cmd = none → s.moves = [] →
    step s = .next s) ∧
  (∀ (s : State) (w : EventWord) (rest : List EnvMove), s.event = none → s.cmd = none → s.en = false →
    s.moves = .raise w :: rest → step s = .next { s with moves := rest })

/-- R257, R254: while HOSTMASK holds the interrupt off, or the engine is disabled, the pending event stays pending and no response
is issued, whatever host command or other move (but a hardware reset) comes; R257's other half, that the step runs when the
mask is lifted, is StepRunsTheDecodedEvent. That SHUTDOWN leaves it pending is inferred from R254 (log 29). -/
def Obligations.MaskedEventStaysPending : Prop :=
  ∀ (s t : State) (w : EventWord), s.event = some w → (s.hostMask = true ∨ s.en = false ∨ s.ie = false) →
    noReset s.moves = true → step s = .next t →
    t.event = some w ∧ responses t.log = responses s.log ∧ hookCalls t.log = hookCalls s.log ∧
    t.rxbuf = s.rxbuf ∧ t.rxlen = s.rxlen ∧ t.txpend = s.txpend ∧ t.txReg = s.txReg

/-- R254: a pending event is cleared by a response with `rearm` and by nothing else (but a hardware reset, R290). So an event that
a SHUTDOWN overtakes is still there after the next INIT, and the engine then answers it, unless a reset strikes first: the second clause, an inference from
R254 where the spec does not speak of the case (log 29). -/
def Obligations.PendingEventIsClearedByItsResponseAlone : Prop :=
  (∀ (s t : State) (w : EventWord), s.event = some w → noReset s.moves = true → step s = .next t →
    t.event = some w ∨ t.event = none ∧ ∃ r, responses t.log = r :: responses s.log ∧ r.rearm = true) ∧
  (∀ (s : State) (w : EventWord) (x a : BitVec 7) (rest : List EnvMove), s.event = some w → s.cmd = none → s.hostMask = true →
    a ≠ 0 → s.moves = .command ((0 : BitVec 1) ++ x) :: .command ((1 : BitVec 1) ++ a) :: .setMask false :: rest →
    rest.head? ≠ some .hardReset →
    ∃ t, runSteps 5 s = .next t ∧ t.event = some w ∧ t.rxbuf = s.rxbuf ∧ t.rxlen = s.rxlen ∧ t.txpend = s.txpend ∧
      responses t.log = responses s.log ∧ step t = exec (decodeEvent s.params.statusMap w) t)

/-- R267: the controller of the model meets the assumptions E1, E2 and E3 at every step, whatever moves are to come. -/
def Obligations.ControllerMeetsE1ToE3 : Prop :=
  ∀ s t : State, step s = .next t → E1 s t ∧ E2 s t ∧ E3 s t

/-- R70: a command and an event that are ready together go one wholly before the other; which is a free value (log 13), and
the one that waits stays on its port. A hardware reset that strikes just then goes first (ResetStrikesWhateverIsPending). -/
def Obligations.CommandAndEventGoOneAtATime : Prop :=
  ∀ (s : State) (w : EventWord) (c : Byte),
    s.event = some w → s.cmd = some c → s.en = true → s.ie = true → s.hostMask = false → resetStrikes s = false →
    step s = exec (decodeCommand c) { s with cmd := none, draws := s.draws + 1 } ∨
    step s = exec (decodeEvent s.params.statusMap w) { s with draws := s.draws + 1 }

/-- R39 with R290: the state after reset holds the values the spec gives, for every choice of parameters; and a hardware
reset in mid-run, from any state whatever, puts the same registers at those values; straps are not reset. (`RXBUF` and
`ADDR` are left open by R39.) -/
def Obligations.ResetEstablishesTheResetValues : Prop :=
  (∀ p : Params, (State.resetWith p).rxlen = 0 ∧ (State.resetWith p).txpend = 0x00 ∧ (State.resetWith p).en = false ∧
    (State.resetWith p).ie = false ∧ (State.resetWith p).aa = false ∧ (State.resetWith p).gcen = false ∧
    (State.resetWith p).phase = .idle ∧ (State.resetWith p).event = none ∧ (State.resetWith p).params = p ∧
    State.reset = State.resetWith State.reset.params) ∧
  (∀ (s : State) (rest : List EnvMove), s.moves = .hardReset :: rest →
    ∃ t, step s = .next t ∧ t.rxlen = 0 ∧ t.txpend = 0x00 ∧ t.en = false ∧ t.ie = false ∧ t.aa = false ∧
      t.gcen = false ∧ t.phase = .idle ∧ t.event = none ∧ t.params = s.params)

/-- R290: a hardware reset discards any pending event, in any state: one that is enabled and unmasked, and so ready to be taken,
one that is held off, and one that is ready together with a host command. The event is not answered: the log of the new run
is empty, no handler is called (no reply is used up), and the transmit register keeps its byte. Any number of steps after it
answer nothing until an event is raised anew: with no move to come and no command, the state stays as it is. That a command on
the host's port is kept, with HOSTMASK and the transmit register, is the model's choice (log 14). -/
def Obligations.ResetStrikesWhateverIsPending : Prop :=
  ∀ (s : State) (rest : List EnvMove), s.moves = .hardReset :: rest →
    ∃ t, step s = .next t ∧ t.event = none ∧ t.log = [] ∧ t.replies = s.replies ∧ t.txReg = s.txReg ∧ t.cmd = s.cmd ∧
      t.hostMask = s.hostMask ∧ t.moves = rest ∧ (s.cmd = none → rest = [] → ∀ k, runSteps k t = .next t)

/-! ## Invariants and whole-machine results -/

/-- R22, R31, R32 and 95_test_vectors.md 2.8: every step keeps the register invariant. -/
def Obligations.StepKeepsTheRegisterInvariant : Prop :=
  ∀ s t : State, s.Inv → step s = .next t → t.Inv

/-- The register invariant holds at reset and the log is lawful there, for every choice of parameters. -/
def Obligations.ResetMeetsTheInvariants : Prop :=
  State.reset.Inv ∧ State.reset.LogLawful ∧ ∀ p : Params, (State.resetWith p).Inv ∧ (State.resetWith p).LogLawful

/-- R11: every step keeps the log lawful: no response without `rearm` or `ack_en`, none that both stops and sends, and the
control levels after a host command move together. -/
def Obligations.StepKeepsTheLogLawful : Prop :=
  ∀ s t : State, s.LogLawful → step s = .next t → t.LogLawful

/-- R120, R165: a step issues at most one response and makes at most one hook call (a hardware reset begins a new log). -/
def Obligations.StepAnswersAndCallsAtMostOnce : Prop :=
  ∀ s t : State, step s = .next t →
    (responses t.log).length ≤ (responses s.log).length + 1 ∧ (hookCalls t.log).length ≤ (hookCalls s.log).length + 1

/-- R270, R120: while no INIT comes, a disabled engine stays inert: no response, no hook call, no data register changed, no
event taken or queued, over any number of steps. The moves to come hold no hardware reset and no INIT word, and none
waits on the port. That a pending event stays and an event that comes is not queued is in log 11 and log 29. -/
def Obligations.InertUntilInit : Prop :=
  ∀ (k : Nat) (s t : State), s.en = false → noReset s.moves = true →
    (∀ c, EnvMove.command c ∈ s.moves → c.getLsbD 7 = false) →
    (∀ w c, EnvMove.together w c ∈ s.moves → c.getLsbD 7 = false) → (∀ c, s.cmd = some c → c.getLsbD 7 = false) →
    runSteps k s = .next t →
    t.en = false ∧ t.event = s.event ∧ responses t.log = responses s.log ∧ hookCalls t.log = hookCalls s.log ∧
    t.rxbuf = s.rxbuf ∧ t.rxlen = s.rxlen ∧ t.txpend = s.txpend ∧ t.txReg = s.txReg

/-- R73, R186 over any number of steps from a state of the invariant, with no hardware reset: if no read call is made, `TXPEND`
is constant and every byte sent to the master in between is that byte. -/
def Obligations.RepeatedReadsSendTheSameByte : Prop :=
  ∀ (k : Nat) (s t : State), s.Inv → noReset s.moves = true → runSteps k s = .next t →
    ((hookCalls t.log).filter HookCall.isRead).length = ((hookCalls s.log).filter HookCall.isRead).length →
    t.txpend = s.txpend ∧ ∃ n, sentBytes t.log = List.replicate n s.txpend ++ sentBytes s.log

/-- R25, R27: PHASE is a ghost: with another PHASE at the start, any number of steps give the same result in every register and
every output, or stop in the same way. -/
def Obligations.PhaseInfluencesNothing : Prop :=
  ∀ (k : Nat) (s : State) (p : Phase),
    (∀ t, runSteps k s = .next t → ∃ q, runSteps k { s with phase := p } = .next { t with phase := q }) ∧
    (∀ f, runSteps k s = .fault f → runSteps k { s with phase := p } = .fault f) ∧
    (∀ r, runSteps k s = .refused r → runSteps k { s with phase := p } = .refused r)

/-- R21: `RXBUF[2]` and `RXBUF[3]` influence no output and no call, over any number of steps. -/
def Obligations.UpperBufferBytesInfluenceNothing : Prop :=
  ∀ (k : Nat) (s : State) (x y : Byte),
    (∀ t, runSteps k s = .next t → ∃ x' y',
      runSteps k { s with rxbuf := { s.rxbuf with b2 := x, b3 := y } } =
        .next { t with rxbuf := { t.rxbuf with b2 := x', b3 := y' } }) ∧
    (∀ f, runSteps k s = .fault f → runSteps k { s with rxbuf := { s.rxbuf with b2 := x, b3 := y } } = .fault f) ∧
    (∀ r, runSteps k s = .refused r → runSteps k { s with rxbuf := { s.rxbuf with b2 := x, b3 := y } } = .refused r)

/-- Every state that steps reach from a reset, with any parameters and any outside world, meets the register invariant and has
a lawful log. -/
def Obligations.ReachableStatesMeetTheInvariants : Prop :=
  ∀ s : State, Reachable s → s.Inv ∧ s.LogLawful
end

