-- ==== Sys2Proof/Laws/State.lean ====
section
/-! SUPPORT. What each update of the state leaves in each field: one lemma per field per update, so that no later proof
unfolds a record update. -/

namespace Sys2Proof.Machine

/-! `setPhase` -/

@[simp] theorem setPhase_rxbuf (p : Phase) (s : State) : (setPhase p s).rxbuf = s.rxbuf := rfl
@[simp] theorem setPhase_rxlen (p : Phase) (s : State) : (setPhase p s).rxlen = s.rxlen := rfl
@[simp] theorem setPhase_txpend (p : Phase) (s : State) : (setPhase p s).txpend = s.txpend := rfl
@[simp] theorem setPhase_en (p : Phase) (s : State) : (setPhase p s).en = s.en := rfl
@[simp] theorem setPhase_ie (p : Phase) (s : State) : (setPhase p s).ie = s.ie := rfl
@[simp] theorem setPhase_aa (p : Phase) (s : State) : (setPhase p s).aa = s.aa := rfl
@[simp] theorem setPhase_gcen (p : Phase) (s : State) : (setPhase p s).gcen = s.gcen := rfl
@[simp] theorem setPhase_addr (p : Phase) (s : State) : (setPhase p s).addr = s.addr := rfl
@[simp] theorem setPhase_phase (p : Phase) (s : State) : (setPhase p s).phase = p := rfl
@[simp] theorem setPhase_params (p : Phase) (s : State) : (setPhase p s).params = s.params := rfl
@[simp] theorem setPhase_event (p : Phase) (s : State) : (setPhase p s).event = s.event := rfl
@[simp] theorem setPhase_txReg (p : Phase) (s : State) : (setPhase p s).txReg = s.txReg := rfl
@[simp] theorem setPhase_cmd (p : Phase) (s : State) : (setPhase p s).cmd = s.cmd := rfl
@[simp] theorem setPhase_hostMask (p : Phase) (s : State) : (setPhase p s).hostMask = s.hostMask := rfl
@[simp] theorem setPhase_moves (p : Phase) (s : State) : (setPhase p s).moves = s.moves := rfl
@[simp] theorem setPhase_replies (p : Phase) (s : State) : (setPhase p s).replies = s.replies := rfl
@[simp] theorem setPhase_log (p : Phase) (s : State) : (setPhase p s).log = s.log := rfl
@[simp] theorem setPhase_draws (p : Phase) (s : State) : (setPhase p s).draws = s.draws := rfl

/-! `clearRx` -/

@[simp] theorem clearRx_rxbuf (s : State) : (clearRx s).rxbuf = s.rxbuf := rfl
@[simp] theorem clearRx_rxlen (s : State) : (clearRx s).rxlen = 0 := rfl
@[simp] theorem clearRx_txpend (s : State) : (clearRx s).txpend = s.txpend := rfl
@[simp] theorem clearRx_en (s : State) : (clearRx s).en = s.en := rfl
@[simp] theorem clearRx_ie (s : State) : (clearRx s).ie = s.ie := rfl
@[simp] theorem clearRx_aa (s : State) : (clearRx s).aa = s.aa := rfl
@[simp] theorem clearRx_gcen (s : State) : (clearRx s).gcen = s.gcen := rfl
@[simp] theorem clearRx_addr (s : State) : (clearRx s).addr = s.addr := rfl
@[simp] theorem clearRx_phase (s : State) : (clearRx s).phase = s.phase := rfl
@[simp] theorem clearRx_params (s : State) : (clearRx s).params = s.params := rfl
@[simp] theorem clearRx_event (s : State) : (clearRx s).event = s.event := rfl
@[simp] theorem clearRx_txReg (s : State) : (clearRx s).txReg = s.txReg := rfl
@[simp] theorem clearRx_cmd (s : State) : (clearRx s).cmd = s.cmd := rfl
@[simp] theorem clearRx_hostMask (s : State) : (clearRx s).hostMask = s.hostMask := rfl
@[simp] theorem clearRx_moves (s : State) : (clearRx s).moves = s.moves := rfl
@[simp] theorem clearRx_replies (s : State) : (clearRx s).replies = s.replies := rfl
@[simp] theorem clearRx_log (s : State) : (clearRx s).log = s.log := rfl
@[simp] theorem clearRx_draws (s : State) : (clearRx s).draws = s.draws := rfl

/-! `setTxpend` -/

@[simp] theorem setTxpend_rxbuf (v : Byte) (s : State) : (setTxpend v s).rxbuf = s.rxbuf := rfl
@[simp] theorem setTxpend_rxlen (v : Byte) (s : State) : (setTxpend v s).rxlen = s.rxlen := rfl
@[simp] theorem setTxpend_txpend (v : Byte) (s : State) : (setTxpend v s).txpend = v := rfl
@[simp] theorem setTxpend_en (v : Byte) (s : State) : (setTxpend v s).en = s.en := rfl
@[simp] theorem setTxpend_ie (v : Byte) (s : State) : (setTxpend v s).ie = s.ie := rfl
@[simp] theorem setTxpend_aa (v : Byte) (s : State) : (setTxpend v s).aa = s.aa := rfl
@[simp] theorem setTxpend_gcen (v : Byte) (s : State) : (setTxpend v s).gcen = s.gcen := rfl
@[simp] theorem setTxpend_addr (v : Byte) (s : State) : (setTxpend v s).addr = s.addr := rfl
@[simp] theorem setTxpend_phase (v : Byte) (s : State) : (setTxpend v s).phase = s.phase := rfl
@[simp] theorem setTxpend_params (v : Byte) (s : State) : (setTxpend v s).params = s.params := rfl
@[simp] theorem setTxpend_event (v : Byte) (s : State) : (setTxpend v s).event = s.event := rfl
@[simp] theorem setTxpend_txReg (v : Byte) (s : State) : (setTxpend v s).txReg = s.txReg := rfl
@[simp] theorem setTxpend_cmd (v : Byte) (s : State) : (setTxpend v s).cmd = s.cmd := rfl
@[simp] theorem setTxpend_hostMask (v : Byte) (s : State) : (setTxpend v s).hostMask = s.hostMask := rfl
@[simp] theorem setTxpend_moves (v : Byte) (s : State) : (setTxpend v s).moves = s.moves := rfl
@[simp] theorem setTxpend_replies (v : Byte) (s : State) : (setTxpend v s).replies = s.replies := rfl
@[simp] theorem setTxpend_log (v : Byte) (s : State) : (setTxpend v s).log = s.log := rfl
@[simp] theorem setTxpend_draws (v : Byte) (s : State) : (setTxpend v s).draws = s.draws := rfl

/-! `txStage` -/

@[simp] theorem txStage_rxbuf (v : Byte) (s : State) : (txStage v s).rxbuf = s.rxbuf := rfl
@[simp] theorem txStage_rxlen (v : Byte) (s : State) : (txStage v s).rxlen = s.rxlen := rfl
@[simp] theorem txStage_txpend (v : Byte) (s : State) : (txStage v s).txpend = s.txpend := rfl
@[simp] theorem txStage_en (v : Byte) (s : State) : (txStage v s).en = s.en := rfl
@[simp] theorem txStage_ie (v : Byte) (s : State) : (txStage v s).ie = s.ie := rfl
@[simp] theorem txStage_aa (v : Byte) (s : State) : (txStage v s).aa = s.aa := rfl
@[simp] theorem txStage_gcen (v : Byte) (s : State) : (txStage v s).gcen = s.gcen := rfl
@[simp] theorem txStage_addr (v : Byte) (s : State) : (txStage v s).addr = s.addr := rfl
@[simp] theorem txStage_phase (v : Byte) (s : State) : (txStage v s).phase = s.phase := rfl
@[simp] theorem txStage_params (v : Byte) (s : State) : (txStage v s).params = s.params := rfl
@[simp] theorem txStage_event (v : Byte) (s : State) : (txStage v s).event = s.event := rfl
@[simp] theorem txStage_txReg (v : Byte) (s : State) : (txStage v s).txReg = v := rfl
@[simp] theorem txStage_cmd (v : Byte) (s : State) : (txStage v s).cmd = s.cmd := rfl
@[simp] theorem txStage_hostMask (v : Byte) (s : State) : (txStage v s).hostMask = s.hostMask := rfl
@[simp] theorem txStage_moves (v : Byte) (s : State) : (txStage v s).moves = s.moves := rfl
@[simp] theorem txStage_replies (v : Byte) (s : State) : (txStage v s).replies = s.replies := rfl
@[simp] theorem txStage_log (v : Byte) (s : State) : (txStage v s).log = s.log := rfl
@[simp] theorem txStage_draws (v : Byte) (s : State) : (txStage v s).draws = s.draws := rfl

/-! `observe` -/

@[simp] theorem observe_rxbuf (o : Obs) (s : State) : (observe o s).rxbuf = s.rxbuf := rfl
@[simp] theorem observe_rxlen (o : Obs) (s : State) : (observe o s).rxlen = s.rxlen := rfl
@[simp] theorem observe_txpend (o : Obs) (s : State) : (observe o s).txpend = s.txpend := rfl
@[simp] theorem observe_en (o : Obs) (s : State) : (observe o s).en = s.en := rfl
@[simp] theorem observe_ie (o : Obs) (s : State) : (observe o s).ie = s.ie := rfl
@[simp] theorem observe_aa (o : Obs) (s : State) : (observe o s).aa = s.aa := rfl
@[simp] theorem observe_gcen (o : Obs) (s : State) : (observe o s).gcen = s.gcen := rfl
@[simp] theorem observe_addr (o : Obs) (s : State) : (observe o s).addr = s.addr := rfl
@[simp] theorem observe_phase (o : Obs) (s : State) : (observe o s).phase = s.phase := rfl
@[simp] theorem observe_params (o : Obs) (s : State) : (observe o s).params = s.params := rfl
@[simp] theorem observe_event (o : Obs) (s : State) : (observe o s).event = s.event := rfl
@[simp] theorem observe_txReg (o : Obs) (s : State) : (observe o s).txReg = s.txReg := rfl
@[simp] theorem observe_cmd (o : Obs) (s : State) : (observe o s).cmd = s.cmd := rfl
@[simp] theorem observe_hostMask (o : Obs) (s : State) : (observe o s).hostMask = s.hostMask := rfl
@[simp] theorem observe_moves (o : Obs) (s : State) : (observe o s).moves = s.moves := rfl
@[simp] theorem observe_replies (o : Obs) (s : State) : (observe o s).replies = s.replies := rfl
@[simp] theorem observe_log (o : Obs) (s : State) : (observe o s).log = o :: s.log := rfl
@[simp] theorem observe_draws (o : Obs) (s : State) : (observe o s).draws = s.draws := rfl

/-! `clearEvent` -/

@[simp] theorem clearEvent_rxbuf (s : State) : (clearEvent s).rxbuf = s.rxbuf := rfl
@[simp] theorem clearEvent_rxlen (s : State) : (clearEvent s).rxlen = s.rxlen := rfl
@[simp] theorem clearEvent_txpend (s : State) : (clearEvent s).txpend = s.txpend := rfl
@[simp] theorem clearEvent_en (s : State) : (clearEvent s).en = s.en := rfl
@[simp] theorem clearEvent_ie (s : State) : (clearEvent s).ie = s.ie := rfl
@[simp] theorem clearEvent_aa (s : State) : (clearEvent s).aa = s.aa := rfl
@[simp] theorem clearEvent_gcen (s : State) : (clearEvent s).gcen = s.gcen := rfl
@[simp] theorem clearEvent_addr (s : State) : (clearEvent s).addr = s.addr := rfl
@[simp] theorem clearEvent_phase (s : State) : (clearEvent s).phase = s.phase := rfl
@[simp] theorem clearEvent_params (s : State) : (clearEvent s).params = s.params := rfl
@[simp] theorem clearEvent_event (s : State) : (clearEvent s).event = none := rfl
@[simp] theorem clearEvent_txReg (s : State) : (clearEvent s).txReg = s.txReg := rfl
@[simp] theorem clearEvent_cmd (s : State) : (clearEvent s).cmd = s.cmd := rfl
@[simp] theorem clearEvent_hostMask (s : State) : (clearEvent s).hostMask = s.hostMask := rfl
@[simp] theorem clearEvent_moves (s : State) : (clearEvent s).moves = s.moves := rfl
@[simp] theorem clearEvent_replies (s : State) : (clearEvent s).replies = s.replies := rfl
@[simp] theorem clearEvent_log (s : State) : (clearEvent s).log = s.log := rfl
@[simp] theorem clearEvent_draws (s : State) : (clearEvent s).draws = s.draws := rfl

/-! `takeCommand` -/

@[simp] theorem takeCommand_rxbuf (s : State) : (takeCommand s).rxbuf = s.rxbuf := rfl
@[simp] theorem takeCommand_rxlen (s : State) : (takeCommand s).rxlen = s.rxlen := rfl
@[simp] theorem takeCommand_txpend (s : State) : (takeCommand s).txpend = s.txpend := rfl
@[simp] theorem takeCommand_en (s : State) : (takeCommand s).en = s.en := rfl
@[simp] theorem takeCommand_ie (s : State) : (takeCommand s).ie = s.ie := rfl
@[simp] theorem takeCommand_aa (s : State) : (takeCommand s).aa = s.aa := rfl
@[simp] theorem takeCommand_gcen (s : State) : (takeCommand s).gcen = s.gcen := rfl
@[simp] theorem takeCommand_addr (s : State) : (takeCommand s).addr = s.addr := rfl
@[simp] theorem takeCommand_phase (s : State) : (takeCommand s).phase = s.phase := rfl
@[simp] theorem takeCommand_params (s : State) : (takeCommand s).params = s.params := rfl
@[simp] theorem takeCommand_event (s : State) : (takeCommand s).event = s.event := rfl
@[simp] theorem takeCommand_txReg (s : State) : (takeCommand s).txReg = s.txReg := rfl
@[simp] theorem takeCommand_cmd (s : State) : (takeCommand s).cmd = none := rfl
@[simp] theorem takeCommand_hostMask (s : State) : (takeCommand s).hostMask = s.hostMask := rfl
@[simp] theorem takeCommand_moves (s : State) : (takeCommand s).moves = s.moves := rfl
@[simp] theorem takeCommand_replies (s : State) : (takeCommand s).replies = s.replies := rfl
@[simp] theorem takeCommand_log (s : State) : (takeCommand s).log = s.log := rfl
@[simp] theorem takeCommand_draws (s : State) : (takeCommand s).draws = s.draws := rfl

/-! `armController` -/

@[simp] theorem armController_rxbuf (a : BusAddr) (s : State) : (armController a s).rxbuf = s.rxbuf := rfl
@[simp] theorem armController_rxlen (a : BusAddr) (s : State) : (armController a s).rxlen = s.rxlen := rfl
@[simp] theorem armController_txpend (a : BusAddr) (s : State) : (armController a s).txpend = s.txpend := rfl
@[simp] theorem armController_en (a : BusAddr) (s : State) : (armController a s).en = true := rfl
@[simp] theorem armController_ie (a : BusAddr) (s : State) : (armController a s).ie = true := rfl
@[simp] theorem armController_aa (a : BusAddr) (s : State) : (armController a s).aa = true := rfl
@[simp] theorem armController_gcen (a : BusAddr) (s : State) : (armController a s).gcen = true := rfl
@[simp] theorem armController_addr (a : BusAddr) (s : State) : (armController a s).addr = a := rfl
@[simp] theorem armController_phase (a : BusAddr) (s : State) : (armController a s).phase = s.phase := rfl
@[simp] theorem armController_params (a : BusAddr) (s : State) : (armController a s).params = s.params := rfl
@[simp] theorem armController_event (a : BusAddr) (s : State) : (armController a s).event = s.event := rfl
@[simp] theorem armController_txReg (a : BusAddr) (s : State) : (armController a s).txReg = s.txReg := rfl
@[simp] theorem armController_cmd (a : BusAddr) (s : State) : (armController a s).cmd = s.cmd := rfl
@[simp] theorem armController_hostMask (a : BusAddr) (s : State) : (armController a s).hostMask = s.hostMask := rfl
@[simp] theorem armController_moves (a : BusAddr) (s : State) : (armController a s).moves = s.moves := rfl
@[simp] theorem armController_replies (a : BusAddr) (s : State) : (armController a s).replies = s.replies := rfl
@[simp] theorem armController_log (a : BusAddr) (s : State) : (armController a s).log = s.log := rfl
@[simp] theorem armController_draws (a : BusAddr) (s : State) : (armController a s).draws = s.draws := rfl

/-! `disableController` -/

@[simp] theorem disableController_rxbuf (s : State) : (disableController s).rxbuf = s.rxbuf := rfl
@[simp] theorem disableController_rxlen (s : State) : (disableController s).rxlen = s.rxlen := rfl
@[simp] theorem disableController_txpend (s : State) : (disableController s).txpend = s.txpend := rfl
@[simp] theorem disableController_en (s : State) : (disableController s).en = false := rfl
@[simp] theorem disableController_ie (s : State) : (disableController s).ie = false := rfl
@[simp] theorem disableController_aa (s : State) : (disableController s).aa = false := rfl
@[simp] theorem disableController_gcen (s : State) : (disableController s).gcen = s.gcen := rfl
@[simp] theorem disableController_addr (s : State) : (disableController s).addr = s.addr := rfl
@[simp] theorem disableController_phase (s : State) : (disableController s).phase = s.phase := rfl
@[simp] theorem disableController_params (s : State) : (disableController s).params = s.params := rfl
@[simp] theorem disableController_event (s : State) : (disableController s).event = s.event := rfl
@[simp] theorem disableController_txReg (s : State) : (disableController s).txReg = s.txReg := rfl
@[simp] theorem disableController_cmd (s : State) : (disableController s).cmd = s.cmd := rfl
@[simp] theorem disableController_hostMask (s : State) : (disableController s).hostMask = s.hostMask := rfl
@[simp] theorem disableController_moves (s : State) : (disableController s).moves = s.moves := rfl
@[simp] theorem disableController_replies (s : State) : (disableController s).replies = s.replies := rfl
@[simp] theorem disableController_log (s : State) : (disableController s).log = s.log := rfl
@[simp] theorem disableController_draws (s : State) : (disableController s).draws = s.draws := rfl

/-! `raiseEvent` -/

@[simp] theorem raiseEvent_rxbuf (w : EventWord) (s : State) : (raiseEvent w s).rxbuf = s.rxbuf := rfl
@[simp] theorem raiseEvent_rxlen (w : EventWord) (s : State) : (raiseEvent w s).rxlen = s.rxlen := rfl
@[simp] theorem raiseEvent_txpend (w : EventWord) (s : State) : (raiseEvent w s).txpend = s.txpend := rfl
@[simp] theorem raiseEvent_en (w : EventWord) (s : State) : (raiseEvent w s).en = s.en := rfl
@[simp] theorem raiseEvent_ie (w : EventWord) (s : State) : (raiseEvent w s).ie = s.ie := rfl
@[simp] theorem raiseEvent_aa (w : EventWord) (s : State) : (raiseEvent w s).aa = s.aa := rfl
@[simp] theorem raiseEvent_gcen (w : EventWord) (s : State) : (raiseEvent w s).gcen = s.gcen := rfl
@[simp] theorem raiseEvent_addr (w : EventWord) (s : State) : (raiseEvent w s).addr = s.addr := rfl
@[simp] theorem raiseEvent_phase (w : EventWord) (s : State) : (raiseEvent w s).phase = s.phase := rfl
@[simp] theorem raiseEvent_params (w : EventWord) (s : State) : (raiseEvent w s).params = s.params := rfl
@[simp] theorem raiseEvent_event (w : EventWord) (s : State) : (raiseEvent w s).event = if s.en then some w else s.event := rfl
@[simp] theorem raiseEvent_txReg (w : EventWord) (s : State) : (raiseEvent w s).txReg = s.txReg := rfl
@[simp] theorem raiseEvent_cmd (w : EventWord) (s : State) : (raiseEvent w s).cmd = s.cmd := rfl
@[simp] theorem raiseEvent_hostMask (w : EventWord) (s : State) : (raiseEvent w s).hostMask = s.hostMask := rfl
@[simp] theorem raiseEvent_moves (w : EventWord) (s : State) : (raiseEvent w s).moves = s.moves := rfl
@[simp] theorem raiseEvent_replies (w : EventWord) (s : State) : (raiseEvent w s).replies = s.replies := rfl
@[simp] theorem raiseEvent_log (w : EventWord) (s : State) : (raiseEvent w s).log = s.log := rfl
@[simp] theorem raiseEvent_draws (w : EventWord) (s : State) : (raiseEvent w s).draws = s.draws := rfl

/-! `placeCommand` -/

@[simp] theorem placeCommand_rxbuf (c : Byte) (s : State) : (placeCommand c s).rxbuf = s.rxbuf := rfl
@[simp] theorem placeCommand_rxlen (c : Byte) (s : State) : (placeCommand c s).rxlen = s.rxlen := rfl
@[simp] theorem placeCommand_txpend (c : Byte) (s : State) : (placeCommand c s).txpend = s.txpend := rfl
@[simp] theorem placeCommand_en (c : Byte) (s : State) : (placeCommand c s).en = s.en := rfl
@[simp] theorem placeCommand_ie (c : Byte) (s : State) : (placeCommand c s).ie = s.ie := rfl
@[simp] theorem placeCommand_aa (c : Byte) (s : State) : (placeCommand c s).aa = s.aa := rfl
@[simp] theorem placeCommand_gcen (c : Byte) (s : State) : (placeCommand c s).gcen = s.gcen := rfl
@[simp] theorem placeCommand_addr (c : Byte) (s : State) : (placeCommand c s).addr = s.addr := rfl
@[simp] theorem placeCommand_phase (c : Byte) (s : State) : (placeCommand c s).phase = s.phase := rfl
@[simp] theorem placeCommand_params (c : Byte) (s : State) : (placeCommand c s).params = s.params := rfl
@[simp] theorem placeCommand_event (c : Byte) (s : State) : (placeCommand c s).event = s.event := rfl
@[simp] theorem placeCommand_txReg (c : Byte) (s : State) : (placeCommand c s).txReg = s.txReg := rfl
@[simp] theorem placeCommand_cmd (c : Byte) (s : State) : (placeCommand c s).cmd = some c := rfl
@[simp] theorem placeCommand_hostMask (c : Byte) (s : State) : (placeCommand c s).hostMask = s.hostMask := rfl
@[simp] theorem placeCommand_moves (c : Byte) (s : State) : (placeCommand c s).moves = s.moves := rfl
@[simp] theorem placeCommand_replies (c : Byte) (s : State) : (placeCommand c s).replies = s.replies := rfl
@[simp] theorem placeCommand_log (c : Byte) (s : State) : (placeCommand c s).log = s.log := rfl
@[simp] theorem placeCommand_draws (c : Byte) (s : State) : (placeCommand c s).draws = s.draws := rfl

/-! `setHostMask` -/

@[simp] theorem setHostMask_rxbuf (held : Bool) (s : State) : (setHostMask held s).rxbuf = s.rxbuf := rfl
@[simp] theorem setHostMask_rxlen (held : Bool) (s : State) : (setHostMask held s).rxlen = s.rxlen := rfl
@[simp] theorem setHostMask_txpend (held : Bool) (s : State) : (setHostMask held s).txpend = s.txpend := rfl
@[simp] theorem setHostMask_en (held : Bool) (s : State) : (setHostMask held s).en = s.en := rfl
@[simp] theorem setHostMask_ie (held : Bool) (s : State) : (setHostMask held s).ie = s.ie := rfl
@[simp] theorem setHostMask_aa (held : Bool) (s : State) : (setHostMask held s).aa = s.aa := rfl
@[simp] theorem setHostMask_gcen (held : Bool) (s : State) : (setHostMask held s).gcen = s.gcen := rfl
@[simp] theorem setHostMask_addr (held : Bool) (s : State) : (setHostMask held s).addr = s.addr := rfl
@[simp] theorem setHostMask_phase (held : Bool) (s : State) : (setHostMask held s).phase = s.phase := rfl
@[simp] theorem setHostMask_params (held : Bool) (s : State) : (setHostMask held s).params = s.params := rfl
@[simp] theorem setHostMask_event (held : Bool) (s : State) : (setHostMask held s).event = s.event := rfl
@[simp] theorem setHostMask_txReg (held : Bool) (s : State) : (setHostMask held s).txReg = s.txReg := rfl
@[simp] theorem setHostMask_cmd (held : Bool) (s : State) : (setHostMask held s).cmd = s.cmd := rfl
@[simp] theorem setHostMask_hostMask (held : Bool) (s : State) : (setHostMask held s).hostMask = held := rfl
@[simp] theorem setHostMask_moves (held : Bool) (s : State) : (setHostMask held s).moves = s.moves := rfl
@[simp] theorem setHostMask_replies (held : Bool) (s : State) : (setHostMask held s).replies = s.replies := rfl
@[simp] theorem setHostMask_log (held : Bool) (s : State) : (setHostMask held s).log = s.log := rfl
@[simp] theorem setHostMask_draws (held : Bool) (s : State) : (setHostMask held s).draws = s.draws := rfl

/-! `nextDraw` -/

@[simp] theorem nextDraw_rxbuf (s : State) : (nextDraw s).rxbuf = s.rxbuf := rfl
@[simp] theorem nextDraw_rxlen (s : State) : (nextDraw s).rxlen = s.rxlen := rfl
@[simp] theorem nextDraw_txpend (s : State) : (nextDraw s).txpend = s.txpend := rfl
@[simp] theorem nextDraw_en (s : State) : (nextDraw s).en = s.en := rfl
@[simp] theorem nextDraw_ie (s : State) : (nextDraw s).ie = s.ie := rfl
@[simp] theorem nextDraw_aa (s : State) : (nextDraw s).aa = s.aa := rfl
@[simp] theorem nextDraw_gcen (s : State) : (nextDraw s).gcen = s.gcen := rfl
@[simp] theorem nextDraw_addr (s : State) : (nextDraw s).addr = s.addr := rfl
@[simp] theorem nextDraw_phase (s : State) : (nextDraw s).phase = s.phase := rfl
@[simp] theorem nextDraw_params (s : State) : (nextDraw s).params = s.params := rfl
@[simp] theorem nextDraw_event (s : State) : (nextDraw s).event = s.event := rfl
@[simp] theorem nextDraw_txReg (s : State) : (nextDraw s).txReg = s.txReg := rfl
@[simp] theorem nextDraw_cmd (s : State) : (nextDraw s).cmd = s.cmd := rfl
@[simp] theorem nextDraw_hostMask (s : State) : (nextDraw s).hostMask = s.hostMask := rfl
@[simp] theorem nextDraw_moves (s : State) : (nextDraw s).moves = s.moves := rfl
@[simp] theorem nextDraw_replies (s : State) : (nextDraw s).replies = s.replies := rfl
@[simp] theorem nextDraw_log (s : State) : (nextDraw s).log = s.log := rfl
@[simp] theorem nextDraw_draws (s : State) : (nextDraw s).draws = s.draws + 1 := rfl

/-! `observeControl` -/

@[simp] theorem observeControl_rxbuf (s : State) : (observeControl s).rxbuf = s.rxbuf := rfl
@[simp] theorem observeControl_rxlen (s : State) : (observeControl s).rxlen = s.rxlen := rfl
@[simp] theorem observeControl_txpend (s : State) : (observeControl s).txpend = s.txpend := rfl
@[simp] theorem observeControl_en (s : State) : (observeControl s).en = s.en := rfl
@[simp] theorem observeControl_ie (s : State) : (observeControl s).ie = s.ie := rfl
@[simp] theorem observeControl_aa (s : State) : (observeControl s).aa = s.aa := rfl
@[simp] theorem observeControl_gcen (s : State) : (observeControl s).gcen = s.gcen := rfl
@[simp] theorem observeControl_addr (s : State) : (observeControl s).addr = s.addr := rfl
@[simp] theorem observeControl_phase (s : State) : (observeControl s).phase = s.phase := rfl
@[simp] theorem observeControl_params (s : State) : (observeControl s).params = s.params := rfl
@[simp] theorem observeControl_event (s : State) : (observeControl s).event = s.event := rfl
@[simp] theorem observeControl_txReg (s : State) : (observeControl s).txReg = s.txReg := rfl
@[simp] theorem observeControl_cmd (s : State) : (observeControl s).cmd = s.cmd := rfl
@[simp] theorem observeControl_hostMask (s : State) : (observeControl s).hostMask = s.hostMask := rfl
@[simp] theorem observeControl_moves (s : State) : (observeControl s).moves = s.moves := rfl
@[simp] theorem observeControl_replies (s : State) : (observeControl s).replies = s.replies := rfl
@[simp] theorem observeControl_log (s : State) : (observeControl s).log = .control (controlLevels s) :: s.log := rfl
@[simp] theorem observeControl_draws (s : State) : (observeControl s).draws = s.draws := rfl

/-! `respond`, with the response constants (R11) -/

@[simp] theorem respond_rxbuf (r : Response) (s : State) : (respond r s).rxbuf = s.rxbuf := by
  unfold respond; split <;> rfl
@[simp] theorem respond_rxlen (r : Response) (s : State) : (respond r s).rxlen = s.rxlen := by
  unfold respond; split <;> rfl
@[simp] theorem respond_txpend (r : Response) (s : State) : (respond r s).txpend = s.txpend := by
  unfold respond; split <;> rfl
@[simp] theorem respond_en (r : Response) (s : State) : (respond r s).en = s.en := by
  unfold respond; split <;> rfl
@[simp] theorem respond_ie (r : Response) (s : State) : (respond r s).ie = s.ie := by
  unfold respond; split <;> rfl
@[simp] theorem respond_aa (r : Response) (s : State) : (respond r s).aa = s.aa := by
  unfold respond; split <;> rfl
@[simp] theorem respond_gcen (r : Response) (s : State) : (respond r s).gcen = s.gcen := by
  unfold respond; split <;> rfl
@[simp] theorem respond_addr (r : Response) (s : State) : (respond r s).addr = s.addr := by
  unfold respond; split <;> rfl
@[simp] theorem respond_phase (r : Response) (s : State) : (respond r s).phase = s.phase := by
  unfold respond; split <;> rfl
@[simp] theorem respond_params (r : Response) (s : State) : (respond r s).params = s.params := by
  unfold respond; split <;> rfl
@[simp] theorem respond_txReg (r : Response) (s : State) : (respond r s).txReg = s.txReg := by
  unfold respond; split <;> rfl
@[simp] theorem respond_cmd (r : Response) (s : State) : (respond r s).cmd = s.cmd := by
  unfold respond; split <;> rfl
@[simp] theorem respond_hostMask (r : Response) (s : State) : (respond r s).hostMask = s.hostMask := by
  unfold respond; split <;> rfl
@[simp] theorem respond_moves (r : Response) (s : State) : (respond r s).moves = s.moves := by
  unfold respond; split <;> rfl
@[simp] theorem respond_replies (r : Response) (s : State) : (respond r s).replies = s.replies := by
  unfold respond; split <;> rfl
@[simp] theorem respond_draws (r : Response) (s : State) : (respond r s).draws = s.draws := by
  unfold respond; split <;> rfl
@[simp] theorem respond_log (r : Response) (s : State) : (respond r s).log = .response r :: s.log := by
  unfold respond; split <;> rfl
@[simp] theorem respond_event (r : Response) (s : State) : (respond r s).event = if r.rearm then none else s.event := by
  unfold respond; split <;> simp_all

/-! `append` (R140) -/

@[simp] theorem append_txpend (b : Byte) (s : State) : (append b s).txpend = s.txpend := by
  unfold append; split <;> rfl
@[simp] theorem append_en (b : Byte) (s : State) : (append b s).en = s.en := by
  unfold append; split <;> rfl
@[simp] theorem append_ie (b : Byte) (s : State) : (append b s).ie = s.ie := by
  unfold append; split <;> rfl
@[simp] theorem append_aa (b : Byte) (s : State) : (append b s).aa = s.aa := by
  unfold append; split <;> rfl
@[simp] theorem append_gcen (b : Byte) (s : State) : (append b s).gcen = s.gcen := by
  unfold append; split <;> rfl
@[simp] theorem append_addr (b : Byte) (s : State) : (append b s).addr = s.addr := by
  unfold append; split <;> rfl
@[simp] theorem append_phase (b : Byte) (s : State) : (append b s).phase = s.phase := by
  unfold append; split <;> rfl
@[simp] theorem append_params (b : Byte) (s : State) : (append b s).params = s.params := by
  unfold append; split <;> rfl
@[simp] theorem append_event (b : Byte) (s : State) : (append b s).event = s.event := by
  unfold append; split <;> rfl
@[simp] theorem append_txReg (b : Byte) (s : State) : (append b s).txReg = s.txReg := by
  unfold append; split <;> rfl
@[simp] theorem append_cmd (b : Byte) (s : State) : (append b s).cmd = s.cmd := by
  unfold append; split <;> rfl
@[simp] theorem append_hostMask (b : Byte) (s : State) : (append b s).hostMask = s.hostMask := by
  unfold append; split <;> rfl
@[simp] theorem append_moves (b : Byte) (s : State) : (append b s).moves = s.moves := by
  unfold append; split <;> rfl
@[simp] theorem append_replies (b : Byte) (s : State) : (append b s).replies = s.replies := by
  unfold append; split <;> rfl
@[simp] theorem append_log (b : Byte) (s : State) : (append b s).log = s.log := by
  unfold append; split <;> rfl
@[simp] theorem append_draws (b : Byte) (s : State) : (append b s).draws = s.draws := by
  unfold append; split <;> rfl

/-! `hardReset` (R39, R290), on the fields the spec gives a value and on those it leaves alone -/

@[simp] theorem hardReset_rxlen (s : State) : (hardReset s).rxlen = 0 := rfl
@[simp] theorem hardReset_txpend (s : State) : (hardReset s).txpend = Config.txpendReset := rfl
@[simp] theorem hardReset_en (s : State) : (hardReset s).en = false := rfl
@[simp] theorem hardReset_ie (s : State) : (hardReset s).ie = false := rfl
@[simp] theorem hardReset_aa (s : State) : (hardReset s).aa = false := rfl
@[simp] theorem hardReset_gcen (s : State) : (hardReset s).gcen = false := rfl
@[simp] theorem hardReset_phase (s : State) : (hardReset s).phase = .idle := rfl
@[simp] theorem hardReset_params (s : State) : (hardReset s).params = s.params := rfl
@[simp] theorem hardReset_event (s : State) : (hardReset s).event = none := rfl
@[simp] theorem hardReset_txReg (s : State) : (hardReset s).txReg = s.txReg := rfl
@[simp] theorem hardReset_cmd (s : State) : (hardReset s).cmd = s.cmd := rfl
@[simp] theorem hardReset_hostMask (s : State) : (hardReset s).hostMask = s.hostMask := rfl
@[simp] theorem hardReset_moves (s : State) : (hardReset s).moves = s.moves := rfl
@[simp] theorem hardReset_replies (s : State) : (hardReset s).replies = s.replies := rfl
@[simp] theorem hardReset_log (s : State) : (hardReset s).log = [] := rfl
@[simp] theorem hardReset_draws (s : State) : (hardReset s).draws = s.draws + 1 := rfl

/-! The response constants -/

@[simp] theorem Response.ack_rearm : Response.ack.rearm = true := rfl
@[simp] theorem Response.ack_ackEn : Response.ack.ackEn = true := rfl
@[simp] theorem Response.ack_stop : Response.ack.stop = false := rfl
@[simp] theorem Response.ack_tx : Response.ack.tx = none := rfl
@[simp] theorem Response.ack_txWe : Response.ack.txWe = false := rfl
@[simp] theorem Response.ackStop_rearm : Response.ackStop.rearm = true := rfl
@[simp] theorem Response.ackStop_ackEn : Response.ackStop.ackEn = true := rfl
@[simp] theorem Response.ackStop_stop : Response.ackStop.stop = true := rfl
@[simp] theorem Response.ackStop_tx : Response.ackStop.tx = none := rfl
@[simp] theorem Response.ackStop_txWe : Response.ackStop.txWe = false := rfl
@[simp] theorem Response.withTx_rearm (r : Response) (v : Byte) : (r.withTx v).rearm = r.rearm := rfl
@[simp] theorem Response.withTx_ackEn (r : Response) (v : Byte) : (r.withTx v).ackEn = r.ackEn := rfl
@[simp] theorem Response.withTx_stop (r : Response) (v : Byte) : (r.withTx v).stop = r.stop := rfl
@[simp] theorem Response.withTx_tx (r : Response) (v : Byte) : (r.withTx v).tx = some v := rfl
@[simp] theorem Response.withTx_txWe (r : Response) (v : Byte) : (r.withTx v).txWe = true := rfl

/-! `settleFirst` changes `moves` alone -/

@[simp] theorem settleFirst_rxbuf (s : State) : (settleFirst s).rxbuf = s.rxbuf := rfl
@[simp] theorem settleFirst_rxlen (s : State) : (settleFirst s).rxlen = s.rxlen := rfl
@[simp] theorem settleFirst_txpend (s : State) : (settleFirst s).txpend = s.txpend := rfl
@[simp] theorem settleFirst_en (s : State) : (settleFirst s).en = s.en := rfl
@[simp] theorem settleFirst_ie (s : State) : (settleFirst s).ie = s.ie := rfl
@[simp] theorem settleFirst_aa (s : State) : (settleFirst s).aa = s.aa := rfl
@[simp] theorem settleFirst_gcen (s : State) : (settleFirst s).gcen = s.gcen := rfl
@[simp] theorem settleFirst_addr (s : State) : (settleFirst s).addr = s.addr := rfl
@[simp] theorem settleFirst_phase (s : State) : (settleFirst s).phase = s.phase := rfl
@[simp] theorem settleFirst_params (s : State) : (settleFirst s).params = s.params := rfl
@[simp] theorem settleFirst_event (s : State) : (settleFirst s).event = s.event := rfl
@[simp] theorem settleFirst_txReg (s : State) : (settleFirst s).txReg = s.txReg := rfl
@[simp] theorem settleFirst_cmd (s : State) : (settleFirst s).cmd = s.cmd := rfl
@[simp] theorem settleFirst_hostMask (s : State) : (settleFirst s).hostMask = s.hostMask := rfl
@[simp] theorem settleFirst_replies (s : State) : (settleFirst s).replies = s.replies := rfl
@[simp] theorem settleFirst_log (s : State) : (settleFirst s).log = s.log := rfl
@[simp] theorem settleFirst_draws (s : State) : (settleFirst s).draws = s.draws := rfl

end Sys2Proof.Machine
end

