-- ==== Sys2Proof/Laws/Ops.lean ====
section
/-! SUPPORT. One lemma for each shared operation that says everything it can do. -/

namespace Sys2Proof.Machine

theorem andThen_eq_next {α β : Type} {o : Host.Outcome α Fault Refusal} {f : α → Host.Outcome β Fault Refusal} {b : β} :
    andThen o f = .next b ↔ ∃ a, o = .next a ∧ f a = .next b := by
  cases o <;> simp [andThen]

@[simp] theorem andThen_next {α β : Type} (a : α) (f : α → Host.Outcome β Fault Refusal) :
    andThen (.next a) f = f a := rfl

theorem rxHasRoom_iff (s : State) : rxHasRoom s = true ↔ s.rxlen.toNat < 4 := by
  simp [rxHasRoom, Config.rxCap, BitVec.lt_def]

/-- `Append` with room: the byte is stored at `RXLEN` and counted (R140). -/
theorem append_of_room {b : Byte} {s : State} (h : s.rxlen.toNat < 4) :
    append b s = { s with rxbuf := s.rxbuf.put s.rxlen b, rxlen := s.rxlen + 1 } := by
  simp [append, (rxHasRoom_iff s).mpr h]

/-- `Append` on a full buffer: the byte is dropped (R140). -/
theorem append_of_full {b : Byte} {s : State} (h : 4 ≤ s.rxlen.toNat) : append b s = s := by
  have : rxHasRoom s = false := by
    rw [Bool.eq_false_iff, Ne, rxHasRoom_iff]; omega
  simp [append, this]

/-- The length after `Append`: one more, saturating at 4 (R140). -/
theorem append_rxlen_toNat (b : Byte) (s : State) :
    (append b s).rxlen.toNat = if s.rxlen.toNat < 4 then s.rxlen.toNat + 1 else s.rxlen.toNat := by
  split
  · rename_i h
    rw [append_of_room h]
    simp only [BitVec.toNat_add]
    have : (1 : RxLen).toNat = 1 := rfl
    omega
  · rename_i h
    rw [append_of_full (by omega)]

/-- A cell that `put` changes is the addressed one, and it holds the byte put there (R10). -/
theorem RxBuf.get_put (b : RxBuf) (k : RxLen) (v : Byte) (j : Fin 4) :
    (b.put k v).get j = if j.val = k.toNat then v else b.get j := by
  have hk := k.isLt
  have e : ∀ n : Nat, n < 8 → (k = BitVec.ofNat 3 n ↔ k.toNat = n) := fun n hn => by
    rw [BitVec.toNat_eq]; simp [Nat.mod_eq_of_lt hn]
  have e0 := e 0 (by omega)
  have e1 := e 1 (by omega)
  have e2 := e 2 (by omega)
  have e3 := e 3 (by omega)
  unfold RxBuf.put
  match j with
  | 0 => split_ifs <;> simp_all [RxBuf.get]
  | 1 => split_ifs <;> simp_all [RxBuf.get]
  | 2 => split_ifs <;> simp_all [RxBuf.get]
  | 3 => split_ifs <;> simp_all [RxBuf.get]

/-- What an exchange with a handler that returns can be: a scripted answer, or a free one (R207). -/
theorem hookExchange_next {i : Byte} {s t : State} {v : Byte} (h : hookExchange i s = .next (v, t)) :
    (s.replies = [] ∧ v = Config.freeHookAnswer s.draws i ∧ t = nextDraw s) ∨
    ∃ rest, s.replies = .returns v :: rest ∧ t = { s with replies := rest } := by
  unfold hookExchange at h
  split at h
  · rename_i hr
    simp only [Host.Outcome.next.injEq, Prod.mk.injEq] at h
    exact .inl ⟨hr, h.1.symm, h.2.symm⟩
  · rename_i v' rest hr
    simp only [Host.Outcome.next.injEq, Prod.mk.injEq] at h
    obtain ⟨rfl, rfl⟩ := h
    exact .inr ⟨rest, hr, rfl⟩
  · simp at h
  · simp at h

/-- Handlers that keep their contract return (R205). -/
theorem hookExchange_returns (i : Byte) {s : State} (h : repliesReturn s.replies = true) :
    ∃ v t, hookExchange i s = .next (v, t) ∧ repliesReturn t.replies = true := by
  unfold hookExchange
  split
  · exact ⟨_, _, rfl, by simpa [nextDraw] using h⟩
  · rename_i v rest hr
    exact ⟨_, _, rfl, by simp_all [repliesReturn]⟩
  · simp_all [repliesReturn]
  · simp_all [repliesReturn]

/-- An exchange changes the scripted replies and the model's count of draws, and nothing else. -/
theorem hookExchange_frame {i : Byte} {s t : State} {v : Byte} (h : hookExchange i s = .next (v, t)) :
    t = { s with replies := t.replies, draws := t.draws } := by
  obtain ⟨_, _, rfl⟩ | ⟨rest, _, rfl⟩ := hookExchange_next h <;> rfl

/-- What `RegRead` can do (R201). -/
theorem regRead_next {i : Byte} {s t : State} {v : Byte} (h : regRead i s = .next (v, t)) :
    (s.params.rdBound = true ∧ ∃ u, hookExchange i s = .next (v, u) ∧ t = observe (.hook (.rd i v)) u) ∨
    (s.params.rdBound = false ∧ v = Config.unboundRead ∧ t = s) := by
  unfold regRead at h
  split at h
  · rename_i hb
    obtain ⟨⟨v', u⟩, hx, hu⟩ := andThen_eq_next.mp h
    simp only [Host.Outcome.next.injEq, Prod.mk.injEq] at hu
    obtain ⟨rfl, rfl⟩ := hu
    exact .inl ⟨hb, u, hx, rfl⟩
  · rename_i hb
    simp only [Host.Outcome.next.injEq, Prod.mk.injEq] at h
    exact .inr ⟨by simpa using hb, h.1.symm, h.2.symm⟩

/-- What `RegWrite` can do (R202). -/
theorem regWrite_next {i v : Byte} {s t : State} (h : regWrite i v s = .next t) :
    (s.params.wrBound = true ∧ ∃ a u, hookExchange i s = .next (a, u) ∧ t = observe (.hook (.wr i v)) u) ∨
    (s.params.wrBound = false ∧ t = s) := by
  unfold regWrite at h
  split at h
  · rename_i hb
    obtain ⟨⟨a, u⟩, hx, hu⟩ := andThen_eq_next.mp h
    simp only [Host.Outcome.next.injEq] at hu
    exact .inl ⟨hb, a, u, hx, hu.symm⟩
  · rename_i hb
    simp only [Host.Outcome.next.injEq] at h
    exact .inr ⟨by simpa using hb, h.symm⟩

/-- SOR's operands by length (R98). -/
theorem request_cases (s : State) :
    (s.rxlen = 1 ∧ request s = .read s.rxbuf.b0) ∨
    (s.rxlen = 2 ∧ request s = .write s.rxbuf.b0 s.rxbuf.b1) ∨
    (s.rxlen ≠ 1 ∧ s.rxlen ≠ 2 ∧ request s = .malformed) := by
  unfold request
  by_cases h1 : s.rxlen = 1
  · exact .inl ⟨h1, by simp [h1, RxBuf.get]⟩
  · by_cases h2 : s.rxlen = 2
    · exact .inr (.inl ⟨h2, by simp [h2, RxBuf.get]⟩)
    · exact .inr (.inr ⟨h1, h2, by rw [if_neg h1, if_neg h2]⟩)

/-- Everything SOR can do when it completes (R160 to R163): the state `u` before PHASE and the response. -/
theorem execSor_next {s t : State} (h : execSor s = .next t) :
    ∃ u, t = respond .ack (setPhase .idle u) ∧
      ((s.rxlen = 1 ∧ s.params.rdBound = true ∧ ∃ v w, hookExchange s.rxbuf.b0 s = .next (v, w) ∧
          u = setTxpend v (observe (.hook (.rd s.rxbuf.b0 v)) w)) ∨
       (s.rxlen = 1 ∧ s.params.rdBound = false ∧ u = setTxpend Config.unboundRead s) ∨
       (s.rxlen = 2 ∧ s.params.wrBound = true ∧ ∃ v w, hookExchange s.rxbuf.b0 s = .next (v, w) ∧
          u = observe (.hook (.wr s.rxbuf.b0 s.rxbuf.b1)) w) ∨
       (s.rxlen = 2 ∧ s.params.wrBound = false ∧ u = s) ∨
       (s.rxlen ≠ 1 ∧ s.rxlen ≠ 2 ∧ u = s)) := by
  unfold execSor at h
  obtain ⟨u, hu, ht⟩ := andThen_eq_next.mp h
  refine ⟨u, by simpa using ht.symm, ?_⟩
  obtain ⟨hl, hr⟩ | ⟨hl, hr⟩ | ⟨h1, h2, hr⟩ := request_cases s
  · rw [hr] at hu
    obtain ⟨⟨v, w⟩, hv, hw⟩ := andThen_eq_next.mp hu
    obtain rfl : setTxpend v w = u := by simpa using hw
    obtain ⟨hb, x, hx, rfl⟩ | ⟨hb, rfl, rfl⟩ := regRead_next hv
    · exact .inl ⟨hl, hb, v, x, hx, rfl⟩
    · exact .inr (.inl ⟨hl, hb, rfl⟩)
  · rw [hr] at hu
    obtain ⟨hb, a, x, hx, rfl⟩ | ⟨hb, rfl⟩ := regWrite_next hu
    · exact .inr (.inr (.inl ⟨hl, hb, a, x, hx, rfl⟩))
    · exact .inr (.inr (.inr (.inl ⟨hl, hb, rfl⟩)))
  · rw [hr] at hu
    exact .inr (.inr (.inr (.inr ⟨h1, h2, by simpa [dispatchRequest] using hu.symm⟩)))

/-- The move the outside world makes is one of those to come, and the others stay in their order. -/
theorem nextMove_some {pending : Bool} {ms rest : List EnvMove} {m : EnvMove} (h : nextMove pending ms = some (m, rest)) :
    ∃ pre post, ms = pre ++ m :: post ∧ rest = pre ++ post ∧ (pending = true → m.isRaise = false) ∧
      (∀ x ∈ pre, x.isRaise = true) ∧ (pending = false → pre = []) := by
  induction ms generalizing rest with
  | nil => simp [nextMove] at h
  | cons x xs ih =>
    unfold nextMove at h
    split at h
    · rename_i hx
      simp only [Bool.and_eq_true] at hx
      split at h
      · simp at h
      · rename_i y r hy
        simp only [Option.some.injEq, Prod.mk.injEq] at h
        obtain ⟨rfl, rfl⟩ := h
        obtain ⟨pre, post, rfl, rfl, hp, hq, he⟩ := ih hy
        exact ⟨x :: pre, post, rfl, rfl, hp, by simpa [hx.2] using hq, by simp [hx.1]⟩
    · rename_i hx
      simp only [Option.some.injEq, Prod.mk.injEq] at h
      obtain ⟨rfl, rfl⟩ := h
      refine ⟨[], xs, rfl, rfl, ?_, by simp, by simp⟩
      intro hp
      simpa [hp] using hx

/-- What the outside world's turn can be: nothing, or one of the moves to come, which raises no event while one is pending. -/
theorem outsideMove_cases (s : State) :
    outsideMove s = s ∨ ∃ m pre post, s.moves = pre ++ m :: post ∧ outsideMove s = applyMove m { s with moves := pre ++ post } ∧
      (s.event.isSome = true → m.isRaise = false) ∧ (∀ x ∈ pre, x.isRaise = true) ∧ (s.event.isSome = false → pre = []) := by
  unfold outsideMove
  cases h : nextMove s.event.isSome s.moves with
  | none => exact .inl rfl
  | some x =>
    obtain ⟨m, rest⟩ := x
    obtain ⟨pre, post, he, rfl, hm, hp, hn⟩ := nextMove_some h
    exact .inr ⟨m, pre, post, he, rfl, hm, hp, hn⟩

theorem eventsTaken_iff (s : State) : eventsTaken s = true ↔ s.en = true ∧ s.ie = true ∧ s.hostMask = false := by
  simp [eventsTaken, engineEnabled, and_assoc]

theorem eventsTaken_eq_false_iff (s : State) :
    eventsTaken s = false ↔ s.en = false ∨ s.ie = false ∨ s.hostMask = true := by
  cases h1 : s.en <;> cases h2 : s.ie <;> cases h3 : s.hostMask <;> simp [eventsTaken, engineEnabled, h1, h2, h3]

theorem readyEvent_eq_some_iff (s : State) (w : EventWord) :
    readyEvent s = some w ↔ s.event = some w ∧ eventsTaken s = true := by
  unfold readyEvent; split <;> simp_all

theorem readyEvent_eq_none_iff (s : State) : readyEvent s = none ↔ s.event = none ∨ eventsTaken s = false := by
  unfold readyEvent; split <;> simp_all

theorem resetStrikes_iff (s : State) : resetStrikes s = true ↔ ∃ rest, s.moves = .hardReset :: rest := by
  cases h : s.moves <;> simp [resetStrikes, h]

/-- The reset strikes: whatever is pending, the step is the reset and nothing else (R290). -/
theorem step_reset {s : State} {rest : List EnvMove} (h : s.moves = .hardReset :: rest) :
    step s = .next (hardReset { s with moves := rest }) := by
  simp [step, turn, resetStrikes, outsideMove, h, nextMove, EnvMove.isRaise, applyMove]

theorem settleFirst_not_strikes (s : State) : resetStrikes (settleFirst s) = false := by
  by_cases h : s.moves.head? = some .hardReset <;> simp [settleFirst, resetStrikes, h]

theorem not_strikes_of_noReset {s : State} (h : noReset s.moves = true) : resetStrikes s = false := by
  rw [← Bool.not_eq_true, resetStrikes_iff]
  rintro ⟨rest, hm⟩
  simp [noReset, hm] at h

/-- Everything one step can be (R8, R70, R120, R254, R290), by whose turn it is; where the reset strikes, `step_reset` says what
the outside move is. -/
theorem step_cases {s t : State} (h : step s = .next t) :
    (resetStrikes s = false ∧
      ((∃ w, s.event = some w ∧ eventsTaken s = true ∧ s.cmd = none ∧ runEvent w s = .next t) ∨
       (∃ c, s.cmd = some c ∧ (s.event = none ∨ eventsTaken s = false) ∧ runCommand c s = .next t) ∨
       (∃ w c, s.event = some w ∧ s.cmd = some c ∧ eventsTaken s = true ∧
         (runCommand c (nextDraw s) = .next t ∨ runEvent w (nextDraw s) = .next t)))) ∨
    ((resetStrikes s = true ∨ s.cmd = none ∧ (s.event = none ∨ eventsTaken s = false)) ∧ t = outsideMove s) := by
  unfold step turn at h
  cases hs : resetStrikes s with
  | true => exact .inr ⟨.inl rfl, by simpa [hs] using h.symm⟩
  | false =>
    cases hr : readyEvent s with
    | none =>
      have hn := (readyEvent_eq_none_iff s).mp hr
      cases hc : s.cmd with
      | none => exact .inr ⟨.inr ⟨rfl, hn⟩, by simpa [hs, hr, hc] using h.symm⟩
      | some c => exact .inl ⟨rfl, .inr (.inl ⟨c, rfl, hn, by simpa [hs, hr, hc] using h⟩)⟩
    | some w =>
      obtain ⟨he, ht⟩ := (readyEvent_eq_some_iff s w).mp hr
      cases hc : s.cmd with
      | none => exact .inl ⟨rfl, .inl ⟨w, he, ht, rfl, by simpa [hs, hr, hc] using h⟩⟩
      | some c =>
        refine .inl ⟨rfl, .inr (.inr ⟨w, c, he, rfl, ht, ?_⟩)⟩
        simp only [hs, hr, hc, runRace] at h
        by_cases hf : Config.freeCommandFirst s.draws = true
        · exact .inl (by simpa [hf] using h)
        · exact .inr (by simpa [hf] using h)

end Sys2Proof.Machine
end

