-- ==== Sys2Proof/Laws/PerInstr.lean ====
section
/-! SUPPORT. Claims about every instruction as syntax, one lemma for each constructor. -/

namespace Sys2Proof.Laws.Encoding

/-- A well-formed instruction's word is on its port as the opcode table has it: an event's status code is covered by exactly
one EV row, and that row's event with the word's operand is the instruction (R92); a command's word has `op` = 1 exactly
for INIT, whose address is `cmd[6:0]` (R94). -/
def Statement (i : Instr) : Prop :=
  i.wf = true → match encodePortWord i with
    | .event w => i.isCommand = false ∧
        (eventRows.filter (fun r => r.covers w.status)).map (fun r => r.name.toInstr w) = [i]
    | .command c => i.isCommand = true ∧ (c.getLsbD 7 = true ↔ i = .init (c.extractLsb' 0 7))

/-- One covering row decides the instruction. -/
theorem of_rows {status d : Byte} {r : EventRow} (h : eventRows.filter (fun q => q.covers status) = [r]) :
    (eventRows.filter (fun q => q.covers status)).map (fun q => q.name.toInstr ⟨status, d⟩) = [r.name.toInstr ⟨status, d⟩] := by
  rw [h]; rfl

theorem berr : Statement .berr := fun _ => ⟨rfl, rfl⟩

theorem unh (code : EventCode) : Statement (.unh code) := by
  have h : ∀ c : EventCode, unhandledCode c = true →
      (eventRows.filter (fun r => r.covers (statusOfCode c))).map (fun r => r.name.toInstr ⟨statusOfCode c, 0⟩) = [.unh c] := by
    decide
  exact fun hw => ⟨rfl, h code hw⟩

theorem amw : Statement .amw := fun _ => ⟨rfl, rfl⟩

theorem amwAl : Statement .amwAl := fun _ => ⟨rfl, rfl⟩

theorem gcm : Statement .gcm := fun _ => ⟨rfl, rfl⟩

theorem gcmAl : Statement .gcmAl := fun _ => ⟨rfl, rfl⟩

theorem draW (d : Byte) : Statement (.draW d) :=
  fun _ => ⟨rfl, of_rows (r := ⟨0x80, .draW⟩) (by decide)⟩

theorem drnW (d : Byte) : Statement (.drnW d) :=
  fun _ => ⟨rfl, of_rows (r := ⟨0x88, .drnW⟩) (by decide)⟩

theorem draG (d : Byte) : Statement (.draG d) :=
  fun _ => ⟨rfl, of_rows (r := ⟨0x90, .draG⟩) (by decide)⟩

theorem drnG (d : Byte) : Statement (.drnG d) :=
  fun _ => ⟨rfl, of_rows (r := ⟨0x98, .drnG⟩) (by decide)⟩

theorem sor : Statement .sor := fun _ => ⟨rfl, rfl⟩

theorem amr : Statement .amr := fun _ => ⟨rfl, rfl⟩

theorem amrAl : Statement .amrAl := fun _ => ⟨rfl, rfl⟩

theorem dsa : Statement .dsa := fun _ => ⟨rfl, rfl⟩

theorem dsn : Statement .dsn := fun _ => ⟨rfl, rfl⟩

theorem dsaLast : Statement .dsaLast := fun _ => ⟨rfl, rfl⟩

theorem init (a : BusAddr) : Statement (.init a) := by
  have h : ∀ a : BusAddr, ((1 : BitVec 1) ++ a).getLsbD 7 = true ∧ ((1 : BitVec 1) ++ a).extractLsb' 0 7 = a := by decide
  exact fun _ => ⟨rfl, fun _ => by simp only [(h a).2], fun _ => (h a).1⟩

theorem shutdown : Statement .shutdown := fun _ => ⟨rfl, by decide⟩

end Sys2Proof.Laws.Encoding
end

