-- ==== Sys2Proof/Tests/Slice0.lean ====
section
/-! SUPPORT. Tests: expected results are taken by hand from the vectors of 95_test_vectors.md (part 2, derived from the rules
there) and from the encoding tables of 30_encoding.md. Then the witnesses: states that meet the hypotheses of the statements. -/

namespace Sys2Proof.Tests

open Sys2Proof.Machine

/-! ## Helpers -/

/-- The next state, if there is one. -/
def nextOf (o : Host.Outcome State Fault Refusal) : Option State :=
  match o with
  | .next t => some t
  | .fault _ => none
  | .refused _ => none

/-- The *ready* state of 95_test_vectors.md (after `RESET ; INIT 0x20`, both hooks bound), with the given data registers. -/
def ready (b : RxBuf) (l : RxLen) (t : Byte) : State :=
  { State.reset with rxbuf := b, rxlen := l, txpend := t, en := true, ie := true, aa := true, gcen := true, addr := 0x20 }

/-- The same, with other straps. -/
def strapped (rd wr : Bool) (s : State) : State := { s with params := ⟨rd, wr, []⟩ }

/-- The same, with scripted handlers. -/
def answering (rs : List HookReply) (s : State) : State := { s with replies := rs }

/-- What the reception vectors show: B, L, P, and the last item of the log. -/
def rxView (o : Host.Outcome State Fault Refusal) : Option (RxBuf × RxLen × Phase × Option Obs) :=
  (nextOf o).map fun t => (t.rxbuf, t.rxlen, t.phase, t.log.head?)

/-- What the dispatch vectors show: T, L, and the log, newest first. -/
def sorView (o : Host.Outcome State Fault Refusal) : Option (Byte × RxLen × List Obs) :=
  (nextOf o).map fun t => (t.txpend, t.rxlen, t.log)

/-- What the transmit vectors show: L, P, the transmit register, and the last item of the log. -/
def txView (o : Host.Outcome State Fault Refusal) : Option (RxLen × Phase × Byte × Option Obs) :=
  (nextOf o).map fun t => (t.rxlen, t.phase, t.txReg, t.log.head?)

/-- What the command vectors show: the control levels, L and T. -/
def hcView (o : Host.Outcome State Fault Refusal) : Option (ControlLevels × RxLen × Byte) :=
  (nextOf o).map fun t => (controlLevels t, t.rxlen, t.txpend)

/-- The responses of R11, written out. -/
def ackObs : Obs := .response ⟨true, true, false, none⟩

def ackStopObs : Obs := .response ⟨true, true, true, none⟩

def ackTxObs (v : Byte) : Obs := .response ⟨true, true, false, some v⟩

/-! ## Well-formedness (R99 c, R217, R92): each check refuses an ill-formed term -/

theorem test_wf_init_zero_refused : (Instr.init 0).wf = false := by decide

theorem test_wf_unh_of_named_code_refused : (Instr.unh 0x0C).wf = false ∧ (Instr.unh 0).wf = false ∧
    (Instr.unh 0x19).wf = false := by decide

theorem test_wf_accepts_bounds : (Instr.init 1).wf = true ∧ (Instr.init 127).wf = true ∧ (Instr.unh 1).wf = true ∧
    (Instr.unh 0x0B).wf = true ∧ (Instr.unh 0x1A).wf = true ∧ (Instr.unh 0x1F).wf = true := by decide

/-! ## Decoding: words written out from R92, R94 (low bits from 95_test_vectors.md 2.1) -/

theorem test_decode_berr : decodeTableWord 8 0b00000111 = some .berr := by decide

theorem test_decode_unh : decodeTableWord 8 0b00001000 = some (.unh 0b00001) ∧
    decodeTableWord 8 0b11111111 = some (.unh 0b11111) := by decide

theorem test_decode_amw : decodeTableWord 8 0b01100111 = some .amw := by decide

theorem test_decode_amw_al : decodeTableWord 8 0b01101000 = some .amwAl := by decide

theorem test_decode_gcm : decodeTableWord 8 0b01110000 = some .gcm := by decide

theorem test_decode_gcm_al : decodeTableWord 8 0b01111000 = some .gcmAl := by decide

theorem test_decode_dra_w : decodeTableWord 16 0b00000101_10000011 = some (.draW 0x05) := by decide

theorem test_decode_drn_w : decodeTableWord 16 0b10101010_10001000 = some (.drnW 0xAA) := by decide

theorem test_decode_dra_g : decodeTableWord 16 0b00010000_10010000 = some (.draG 0x10) := by decide

theorem test_decode_drn_g : decodeTableWord 16 0b00010000_10011000 = some (.drnG 0x10) := by decide

theorem test_decode_sor : decodeTableWord 8 0b10100111 = some .sor := by decide

theorem test_decode_amr : decodeTableWord 8 0b10101000 = some .amr := by decide

theorem test_decode_amr_al : decodeTableWord 8 0b10110000 = some .amrAl := by decide

theorem test_decode_dsa : decodeTableWord 8 0b10111000 = some .dsa := by decide

theorem test_decode_dsn : decodeTableWord 8 0b11000000 = some .dsn := by decide

theorem test_decode_dsa_last : decodeTableWord 8 0b11001001 = some .dsaLast := by decide

/-- `INIT 0x20` is `HC:A0` (R103); on the command port (log 15). -/
theorem test_decode_init : decodeCommand 0b10100000 = .init 0x20 ∧
    decodeTableWord 24 0b00000001_00000000_10100000 = some (.init 0x20) := by decide

theorem test_decode_shutdown : decodeCommand 0b01111111 = .shutdown ∧
    decodeTableWord 24 0b00000001_00000000_00000000 = some .shutdown := by decide

/-- The four example encodings of R103. -/
theorem test_encoding_column : encodingColumn (.draW 0x05) = "80/05".toList ∧ encodingColumn .sor = "A0/--".toList ∧
    encodingColumn (.init 0x20) = "HC:A0".toList ∧ encodingColumn .shutdown = "HC:00".toList := by decide

/-- `UNH(0x08)` names the status code (R103); a named event's code is no UNH line (log 26). -/
theorem test_trace_unh : parseLine "UNH(0x08)".toList = some (.op (.unh 0b00001)) ∧
    parseLine "UNH(0x60)".toList = none := by decide

/-- An exception to the default table counts for its own eight bits (log 6). -/
theorem test_classify_exception : classify [(0x60, .unh)] 0x60 = .unh ∧ classify [(0x60, .unh)] 0x61 = .amw := by decide

/-! ## Reception family (2.2) -/

theorem test_amw : rxView (exec .amw (ready ⟨0x05, 0xAA, 0, 0⟩ 2 0)) =
    some (⟨0x05, 0xAA, 0, 0⟩, 0, .receiving, some ackObs) := by decide

theorem test_amw_al : rxView (exec .amwAl (ready ⟨1, 2, 3, 4⟩ 4 0)) =
    some (⟨1, 2, 3, 4⟩, 0, .receiving, some ackObs) := by decide

theorem test_gcm : rxView (exec .gcm (ready ⟨5, 0, 0, 0⟩ 1 0)) =
    some (⟨5, 0, 0, 0⟩, 0, .receiving, some ackObs) := by decide

theorem test_gcm_al : rxView (exec .gcmAl (ready ⟨0x05, 0xAA, 0xFF, 0⟩ 3 0)) =
    some (⟨0x05, 0xAA, 0xFF, 0⟩, 0, .receiving, some ackObs) := by decide

theorem test_dra_w_last_cell : rxView (exec (.draW 0x11) (ready ⟨0x05, 0xAA, 0xFF, 0⟩ 3 0)) =
    some (⟨0x05, 0xAA, 0xFF, 0x11⟩, 4, .receiving, some ackObs) := by decide

theorem test_dra_w_full : rxView (exec (.draW 0x22) (ready ⟨0x05, 0xAA, 0xFF, 0x11⟩ 4 0)) =
    some (⟨0x05, 0xAA, 0xFF, 0x11⟩, 4, .receiving, some ackObs) := by decide

theorem test_dra_g : rxView (exec (.draG 0x10) (ready ⟨0, 0, 0, 0⟩ 1 0)) =
    some (⟨0, 0x10, 0, 0⟩, 2, .receiving, some ackObs) := by decide

theorem test_dra_g_old_bytes_stay : rxView (exec (.draG 0x09) (ready ⟨7, 8, 3, 4⟩ 0 0)) =
    some (⟨9, 8, 3, 4⟩, 1, .receiving, some ackObs) := by decide

theorem test_drn_w : rxView (exec (.drnW 0xAA) (ready ⟨5, 0, 0, 0⟩ 1 0)) =
    some (⟨0x05, 0xAA, 0, 0⟩, 2, .idle, some ackStopObs) := by decide

theorem test_drn_w_full : rxView (exec (.drnW 0x99) (ready ⟨1, 2, 3, 4⟩ 4 0)) =
    some (⟨1, 2, 3, 4⟩, 4, .idle, some ackStopObs) := by decide

theorem test_drn_g : rxView (exec (.drnG 0x10) (ready ⟨0, 0, 0, 0⟩ 0 0)) =
    some (⟨0x10, 0, 0, 0⟩, 1, .idle, some ackStopObs) := by decide

/-! ## Dispatch family (2.3) -/

theorem test_sor_read : sorView (exec .sor (answering [.returns 0x01] (ready ⟨0x05, 0xAA, 0, 0⟩ 1 0))) =
    some (0x01, 1, [ackObs, .hook (.rd 0x05 0x01)]) := by decide

theorem test_sor_write : sorView (exec .sor (answering [.returns 0x77] (ready ⟨0x05, 0xAA, 0, 0⟩ 2 0x3C))) =
    some (0x3C, 2, [ackObs, .hook (.wr 0x05 0xAA)]) := by decide

/-! ## Transmit family (2.4) -/

theorem test_amr : txView (exec .amr (ready ⟨5, 0, 0, 0⟩ 1 0x3C)) = some (0, .txFirst, 0x3C, some (ackTxObs 0x3C)) := by decide

theorem test_amr_al : txView (exec .amrAl (ready ⟨0, 0, 0, 0⟩ 2 0x5A)) =
    some (0, .txFirst, 0x5A, some (ackTxObs 0x5A)) := by decide

theorem test_dsa_keeps_length : txView (exec .dsa (ready ⟨0, 0, 0, 0⟩ 2 0x3C)) =
    some (2, .txSubsequent, 0x3C, some (ackTxObs 0x3C)) := by decide

theorem test_dsn_leaves_transmit_register : txView (exec .dsn (ready ⟨0, 0, 0, 0⟩ 3 0x3C)) =
    some (3, .idle, 0, some ackObs) := by decide

theorem test_dsa_last : txView (exec .dsaLast (ready ⟨0, 0, 0, 0⟩ 1 0x3C)) = some (1, .idle, 0, some ackStopObs) := by decide

/-! ## Façade (2.5): unbound hooks -/

theorem test_sor_read_unbound : sorView (exec .sor (strapped false true (ready ⟨5, 0, 0, 0⟩ 1 0x77))) =
    some (0x00, 1, [ackObs]) := by decide

theorem test_sor_write_unbound : sorView (exec .sor (strapped true false (ready ⟨0x05, 0xAA, 0, 0⟩ 2 0x3C))) =
    some (0x3C, 2, [ackObs]) := by decide

/-! ## Host commands (2.6) -/

theorem test_init_from_reset : hcView (exec (.init 0x20) State.reset) = some (⟨true, true, true, true, 0x20⟩, 0, 0) := by decide

theorem test_init_while_enabled : hcView (exec (.init 0x21) (ready ⟨5, 0, 0, 0⟩ 1 0x3C)) =
    some (⟨true, true, true, true, 0x21⟩, 1, 0x3C) := by decide

theorem test_init_zero_refused : exec (.init 0) State.reset = .refused .initAddressZero := rfl

theorem test_shutdown : hcView (exec .shutdown (ready ⟨5, 0, 0, 0⟩ 1 0x3C)) =
    some (⟨false, false, false, true, 0x20⟩, 1, 0x3C) := by decide

/-! ## Recovery family (2.7) -/

theorem test_berr : rxView (exec .berr (ready ⟨5, 0, 0, 0⟩ 1 0x3C)) = some (⟨5, 0, 0, 0⟩, 1, .idle, some ackStopObs) := by decide

theorem test_unh : rxView (exec (.unh 0b00111) (ready ⟨5, 6, 0, 0⟩ 2 0x3C)) =
    some (⟨5, 6, 0, 0⟩, 2, .idle, some ackStopObs) := by decide

/-! ## The step -/

/-- P8, line 2: an event before INIT takes no step. -/
theorem test_step_disabled : (nextOf (step { State.reset with moves := [.raise ⟨0x60, 0⟩] })).map
    (fun t => (t.phase, t.event, t.log, t.moves)) = some (.idle, none, [], []) := by decide

/-- P10: `DRN_W 0xAA` on the event port. -/
theorem test_step_event : rxView (step { ready ⟨5, 0, 0, 0⟩ 1 0 with event := some ⟨0x88, 0xAA⟩ }) =
    some (⟨0x05, 0xAA, 0, 0⟩, 2, .idle, some ackStopObs) := by decide

/-! ## Witnesses: the hypotheses of the statements can be met -/

/-- A ready state with a byte received, and its event pending. -/
def sample : State := ready ⟨0x05, 0xAA, 0x11, 0x22⟩ 1 0x3C

/-- SOR waits on the event port. -/
def withSor (s : State) : State := { s with event := some ⟨0xA0, 0⟩ }

theorem witness_DecodeOfEncode : (Instr.unh 1).wf = true ∧ (Instr.unh 31).wf = true ∧ (Instr.init 1).wf = true ∧
    (Instr.init 127).wf = true ∧ (Instr.draW 0xFF).wf = true := by decide

theorem witness_EncodeOfDecodeClearsIgnoredBits :
    ((0x9F : Byte) &&& 0xF8 ∈ [(0x80 : Byte), 0x88, 0x90, 0x98]) ∧ ((0x80 : Byte) &&& 0xF8 ∈ [(0x80 : Byte), 0x88, 0x90, 0x98]) ∧
    ((0x7F : Byte) &&& 0xF8 ∉ [(0x80 : Byte), 0x88, 0x90, 0x98]) ∧ ((0xA0 : Byte) &&& 0xF8 ∉ [(0x80 : Byte), 0x88, 0x90, 0x98]) := by
  decide

theorem witness_DecoderRejectsByName : (1 : Byte) ≠ 0 ∧ (2 : Byte) ≠ 0 ∧ (2 : Byte) ≠ 1 ∧ (255 : Byte) ≠ 0 ∧ (255 : Byte) ≠ 1 ∧
    ([0, 0] : List Byte).length ≠ 3 ∧ ([0, 0, 0, 0] : List Byte).length ≠ 3 := by decide

theorem witness_DataInIsOperandOfDataReceivedOnly : classify [] 0x87 = .draW ∧ classify [] 0x97 = .draG ∧
    classify [] 0x8F = .drnW ∧ classify [] 0x9F = .drnG ∧ classify [] 0xA0 ∉ [EventName.draW, .draG, .drnW, .drnG] ∧
    classify [] 0x78 ∉ [EventName.draW, .draG, .drnW, .drnG] := by decide

theorem witness_TraceTextReadsBack : (Instr.unh 31).wf = true ∧ (Instr.init 127).wf = true ∧ (Instr.drnG 0).wf = true := by decide

theorem witness_AddressMatchWriteClearsLength : Instr.amw ∈ [Instr.amw, .amwAl, .gcm, .gcmAl] ∧
    Instr.gcmAl ∈ [Instr.amw, .amwAl, .gcm, .gcmAl] ∧ (0x67 : Byte) &&& 0xF8 = 0x60 ∧ (0x6F : Byte) &&& 0xF8 = 0x68 ∧
    (0x77 : Byte) &&& 0xF8 = 0x70 ∧ (0x7F : Byte) &&& 0xF8 = 0x78 := by decide

theorem witness_DataReceivedAckAppends : Instr.draW 0xFF ∈ [Instr.draW 0xFF, .draG 0xFF] ∧
    (ready ⟨0, 0, 0, 0⟩ 0 0).rxlen = 0 ∧ (ready ⟨0, 0, 0, 0⟩ 1 0).rxlen = 1 ∧ (ready ⟨0, 0, 0, 0⟩ 2 0).rxlen = 2 ∧
    (ready ⟨0, 0, 0, 0⟩ 3 0).rxlen = 3 ∧ 4 ≤ (ready ⟨0, 0, 0, 0⟩ 4 0).rxlen ∧ 4 ≤ (ready ⟨0, 0, 0, 0⟩ 7 0).rxlen ∧
    (0x87 : Byte) &&& 0xF8 = 0x80 ∧ (0x97 : Byte) &&& 0xF8 = 0x90 := by decide

theorem witness_DataReceivedNackAppendsAndResetsTheBus : Instr.drnG 0xFF ∈ [Instr.drnW 0xFF, .drnG 0xFF] ∧
    (ready ⟨0, 0, 0, 0⟩ 0 0).rxlen = 0 ∧ (ready ⟨0, 0, 0, 0⟩ 1 0).rxlen = 1 ∧ (ready ⟨0, 0, 0, 0⟩ 2 0).rxlen = 2 ∧
    (ready ⟨0, 0, 0, 0⟩ 3 0).rxlen = 3 ∧ 4 ≤ (ready ⟨0, 0, 0, 0⟩ 4 0).rxlen ∧ 4 ≤ (ready ⟨0, 0, 0, 0⟩ 7 0).rxlen ∧
    (0x8F : Byte) &&& 0xF8 = 0x88 ∧ (0x9F : Byte) &&& 0xF8 = 0x98 := by decide

theorem witness_ReadRequestStagesTheAnswer :
    (answering [.returns 0x3C] sample).rxlen = 1 ∧ (answering [.returns 0x3C] sample).params.rdBound = true ∧
    (answering [.returns 0x3C] sample).replies = [.returns 0x3C] ∧ (strapped false true sample).rxlen = 1 ∧
    (strapped false true sample).params.rdBound = false := by decide

theorem witness_ReadRequestStagesAFreeAnswer : sample.rxlen = 1 ∧ sample.params.rdBound = true ∧ sample.replies = [] := by decide

theorem witness_WriteRequestCallsTheWriteHook :
    (answering [.returns 0] (ready ⟨0, 0xFF, 0, 0⟩ 2 0)).rxlen = 2 ∧
    (answering [.returns 0] (ready ⟨0, 0xFF, 0, 0⟩ 2 0)).params.wrBound = true ∧
    (answering [.returns 0] (ready ⟨0, 0xFF, 0, 0⟩ 2 0)).replies = [.returns 0] ∧
    (strapped true false (ready ⟨0, 0xFF, 0, 0⟩ 2 0)).rxlen = 2 ∧
    (strapped true false (ready ⟨0, 0xFF, 0, 0⟩ 2 0)).params.wrBound = false := by decide

theorem witness_MalformedTransactionIsSilent : (ready ⟨0, 0, 0, 0⟩ 0 0).rxlen = 0 ∧ (ready ⟨0, 0, 0, 0⟩ 3 0).rxlen = 3 ∧
    (ready ⟨0, 0, 0, 0⟩ 4 0).rxlen = 4 ∧ (([] : List Byte).length ≠ 1 ∧ ([] : List Byte).length ≠ 2) ∧
    (([1, 2, 3] : List Byte).length ≠ 1 ∧ ([1, 2, 3] : List Byte).length ≠ 2) := by decide

theorem witness_SorCompletesWhenHandlersReturn : repliesReturn sample.replies = true ∧
    repliesReturn (answering [.returns 0xFF] sample).replies = true ∧ (0xA7 : Byte) &&& 0xF8 = 0xA0 := by decide

theorem witness_SorStopsOnlyOnAMisbehavingHandler :
    exec .sor (answering [.hangs] sample) = .fault .handlerNeverReturns ∧
    exec .sor (answering [.commands] (ready ⟨0, 0, 0, 0⟩ 2 0)) = .refused .commandInsideHandler ∧
    (∃ t, exec .sor (answering [.hangs] (ready ⟨0, 0, 0, 0⟩ 3 0)) = .next t) ∧
    ∃ t, exec .sor (strapped false true (answering [.hangs] sample)) = .next t := ⟨rfl, rfl, ⟨_, rfl⟩, _, rfl⟩

theorem witness_AddressMatchReadSendsTxpend : Instr.amr ∈ [Instr.amr, .amrAl] ∧ Instr.amrAl ∈ [Instr.amr, .amrAl] ∧
    (0xAF : Byte) &&& 0xF8 = 0xA8 ∧ (0xB7 : Byte) &&& 0xF8 = 0xB0 := by decide

theorem witness_DataSentEncodings : (0xBF : Byte) &&& 0xF8 = 0xB8 ∧ (0xC7 : Byte) &&& 0xF8 = 0xC0 := by decide

theorem witness_RecoveryAnswersAckStopAndIdles : Instr.berr ∈ [Instr.dsaLast, .berr, .unh 0] ∧
    Instr.unh 31 ∈ [Instr.dsaLast, .berr, .unh 31] ∧ (0xCF : Byte) &&& 0xF8 = 0xC8 ∧ (0x07 : Byte) &&& 0xF8 = 0x00 ∧
    ((0x5F : Byte) &&& 0xF8 ∈ [(0x08 : Byte), 0x10, 0x18, 0x20, 0x28, 0x30, 0x38, 0x40, 0x48, 0x50, 0x58, 0xD0, 0xD8, 0xE0,
      0xE8, 0xF0, 0xF8]) := by decide

theorem witness_InitArmsTheController : (1 ≤ (1 : BusAddr).toNat ∧ (1 : BusAddr).toNat ≤ 127) ∧
    (1 ≤ (127 : BusAddr).toNat ∧ (127 : BusAddr).toNat ≤ 127) := by decide

theorem witness_StagedByteSurvivesShutdownAndInit : (1 : BusAddr) ≠ 0 ∧ (127 : BusAddr) ≠ 0 := by decide

theorem witness_EventOperationsKeepControlState : Instr.berr.isCommand = false ∧ ∃ t, exec .berr sample = .next t :=
  ⟨rfl, _, rfl⟩

theorem witness_HostCommandsKeepDataRegisters : Instr.shutdown.isCommand = true ∧ (∃ t, exec .shutdown sample = .next t) ∧
    (Instr.init 127).isCommand = true ∧ ∃ t, exec (.init 127) sample = .next t :=
  ⟨rfl, ⟨_, rfl⟩, rfl, _, rfl⟩

theorem witness_PhaseAfterEachOperation : (∃ t, exec .amw sample = .next t) ∧ (∃ t, exec .dsa sample = .next t) ∧
    ∃ t, exec (.init 1) sample = .next t := ⟨⟨_, rfl⟩, ⟨_, rfl⟩, _, rfl⟩

theorem witness_ResponseOfEachEventOperation : Instr.dsa.isCommand = false ∧ (∃ t, exec .dsa sample = .next t) ∧
    (Instr.unh 7).isCommand = false ∧ ∃ t, exec (.unh 7) sample = .next t := ⟨rfl, ⟨_, rfl⟩, rfl, _, rfl⟩

theorem witness_HookCallsAreTheDispatchedRequests :
    ∃ t, execAll [.sor, .amw, .sor] (answering [.returns 1] sample) = .next t ∧ hookCalls t.log = [.rd 0x05 1] :=
  ⟨_, rfl, by decide⟩

theorem witness_HookPortRequestsOnlyWhenBound :
    ∃ t, exec .sor (answering [.returns 1] sample) = .next t ∧ hookCalls t.log = [.rd 0x05 1] := ⟨_, rfl, by decide⟩

theorem witness_TxpendIsWrittenByReadRequestsOnly :
    ∃ t, exec .sor (answering [.returns 1] sample) = .next t ∧ t.txpend ≠ (answering [.returns 1] sample).txpend :=
  ⟨_, rfl, by decide⟩

theorem witness_RxlenAfterEachOperation : (∃ t, exec (.draW 1) sample = .next t) ∧
    ∃ t, exec (.drnG 1) (ready ⟨0, 0, 0, 0⟩ 4 0) = .next t := ⟨⟨_, rfl⟩, _, rfl⟩

theorem witness_RxbufIsWrittenAtRxlenOnly : ∃ t, exec (.draW 1) sample = .next t ∧ t.rxbuf.get 1 ≠ sample.rxbuf.get 1 :=
  ⟨_, rfl, by decide⟩

theorem witness_SorTwiceDispatchesTwice :
    (∃ t, exec .sor (answering [.returns 1] sample) = .next t) ∧
    (∃ t, execAll [.sor, .sor] (answering [.returns 1, .returns 2] sample) = .next t) ∧
    (answering [.returns 1, .returns 2] sample).rxlen = 1 ∧
    (∃ t, execAll [.sor, .sor] (answering [.returns 1, .returns 2] (ready ⟨5, 6, 0, 0⟩ 2 0)) = .next t) ∧
    (answering [.returns 1, .returns 2] (ready ⟨5, 6, 0, 0⟩ 2 0)).rxlen = 2 ∧ State.reset.params.rdBound = true ∧
    State.reset.params.wrBound = true := ⟨⟨_, rfl⟩, ⟨_, rfl⟩, rfl, ⟨_, rfl⟩, rfl, rfl, rfl⟩

theorem witness_WriteTransactionCallsTheHookOnce : sample.params.wrBound = true ∧ repliesReturn sample.replies = true := by decide

theorem witness_ReadTransactionSendsTheHooksAnswer : (answering [.returns 0xFF] sample).params.rdBound = true ∧
    (answering [.returns 0xFF] sample).replies = [.returns 0xFF] := by decide

theorem witness_FramesRaiseTheExpansions : (1 : BusAddr) ≠ 0 := by decide

theorem witness_WellFormedStreamEndsIdle :
    wellFormedStream [.amw, .draW 1, .berr, .amr, .dsn] = true ∧ sample.phase = .idle ∧
    ∃ t, execAll [.amw, .draW 1, .berr, .amr, .dsn] sample = .next t := ⟨by decide, rfl, _, rfl⟩

theorem witness_StepRunsTheDecodedEvent : (withSor sample).event = some ⟨0xA0, 0⟩ ∧ (withSor sample).en = true ∧
    (withSor sample).ie = true ∧ (withSor sample).hostMask = false ∧ (withSor sample).cmd = none ∧
    resetStrikes (withSor sample) = false := by decide

/-- A command waits: with no event, with an event that HOSTMASK holds, and with one that a disabled engine does not take. -/
theorem witness_StepRunsTheDecodedCommand :
    let s : State := { sample with cmd := some 0xA0 }
    let m : State := { withSor sample with cmd := some 0x00, hostMask := true }
    let d : State := { withSor State.reset with cmd := some 0xA0 }
    (s.cmd = some 0xA0 ∧ s.event = none) ∧ (m.cmd = some 0x00 ∧ m.event ≠ none ∧ m.hostMask = true) ∧
    (d.cmd = some 0xA0 ∧ d.event ≠ none ∧ d.en = false ∧ d.ie = false) ∧
    resetStrikes s = false ∧ resetStrikes m = false ∧ resetStrikes d = false := by decide

theorem witness_FetchedWordIsRun : State.reset.params.statusMap = [] ∧ decodeTableWord 8 0xA0 = some .sor ∧
    Instr.sor.isCommand = false ∧ decodeTableWord 24 0x0100FF = some (.init 127) ∧ (Instr.init 127).isCommand = true := by decide

theorem witness_DisabledEngineTakesNoEvent :
    let s : State := withSor State.reset
    let r : State := { State.reset with moves := [.raise ⟨0x60, 0⟩] }
    (s.event = some ⟨0xA0, 0⟩ ∧ s.en = false ∧ s.ie = false ∧ s.cmd = none ∧ s.moves = []) ∧
    (r.event = none ∧ r.cmd = none ∧ r.en = false ∧ r.moves = [.raise ⟨0x60, 0⟩]) := by decide

/-- Held by HOSTMASK, and left by a SHUTDOWN. -/
theorem witness_MaskedEventStaysPending :
    let s : State := { withSor sample with hostMask := true, moves := [.setMask false] }
    let d : State := { withSor State.reset with cmd := some 0x7F }
    (s.event = some ⟨0xA0, 0⟩ ∧ s.hostMask = true ∧ noReset s.moves = true ∧ ∃ t, step s = .next t) ∧
    (d.event = some ⟨0xA0, 0⟩ ∧ d.en = false ∧ d.ie = false ∧ noReset d.moves = true ∧ ∃ t, step d = .next t) :=
  ⟨⟨rfl, rfl, rfl, _, rfl⟩, rfl, rfl, rfl, rfl, _, rfl⟩

/-- An event that is answered, one that stays, and one that a SHUTDOWN overtakes. -/
theorem witness_PendingEventIsClearedByItsResponseAlone :
    let s : State := { sample with event := some ⟨0x60, 0⟩ }
    let m : State := { s with hostMask := true, moves := [.command 0x7F, .command 0xFF, .setMask false] }
    (s.event = some ⟨0x60, 0⟩ ∧ noReset s.moves = true ∧ ∃ t, step s = .next t ∧ t.event = none) ∧
    (noReset m.moves = true ∧ ∃ t, step m = .next t ∧ t.event = some ⟨0x60, 0⟩) ∧
    (m.event = some ⟨0x60, 0⟩ ∧ m.cmd = none ∧ m.hostMask = true ∧ (127 : BitVec 7) ≠ 0 ∧
      m.moves = [.command ((0 : BitVec 1) ++ (127 : BitVec 7)), .command ((1 : BitVec 1) ++ (127 : BitVec 7)), .setMask false] ∧
      ([] : List EnvMove).head? ≠ some .hardReset) :=
  ⟨⟨rfl, rfl, _, rfl, rfl⟩, ⟨rfl, _, rfl, rfl⟩, rfl, rfl, rfl, by decide, rfl, by decide⟩

/-- A raise, and a raise that waits while an event is pending. -/
theorem witness_ControllerMeetsE1ToE3 :
    let s : State := { sample with moves := [.raise ⟨0x60, 0⟩] }
    (s.event = none ∧ ∃ t, step s = .next t ∧ t.event.isSome = true) ∧
    (let m : State := { withSor s with hostMask := true }
     m.event.isSome = true ∧ ∃ t, step m = .next t ∧ t.event.isSome = true) := ⟨⟨rfl, _, rfl, rfl⟩, rfl, _, rfl, rfl⟩

/-- E4 bars a master-role code and an `_AL` event, and no other code that is UNH (R92, R127). -/
theorem test_environment_assumption_E4 : masterRoleCode [] 0x08 = true ∧ masterRoleCode [] 0x5F = true ∧
    masterRoleCode [] 0x00 = false ∧ masterRoleCode [] 0x60 = false ∧ masterRoleCode [] 0xD0 = false ∧
    masterRoleCode [] 0xF8 = false ∧ classify [] 0xB0 ∈ CoarseEvent.arbitrationLost.members := by decide

theorem witness_CommandAndEventGoOneAtATime :
    let s : State := { withSor sample with cmd := some 0x00 }
    s.event = some ⟨0xA0, 0⟩ ∧ s.cmd = some 0x00 ∧ s.en = true ∧ s.ie = true ∧ s.hostMask = false ∧
    resetStrikes s = false := by decide

/-- A reset comes: with no event, and with an event that is ready to be taken, with a command and without. -/
theorem witness_ResetEstablishesTheResetValues : ({ sample with moves := [.hardReset] } : State).moves = [.hardReset] ∧
    ({ withSor sample with moves := [.hardReset] } : State).moves = [.hardReset] := by decide

theorem witness_ResetStrikesWhateverIsPending :
    let r : State := { withSor sample with moves := [.hardReset] }
    let m : State := { withSor sample with hostMask := true, moves := [.hardReset] }
    let b : State := { withSor sample with cmd := some 0x00, moves := [.hardReset] }
    (r.moves = [.hardReset] ∧ readyEvent r = some ⟨0xA0, 0⟩ ∧ r.cmd = none) ∧
    (m.moves = [.hardReset] ∧ m.event = some ⟨0xA0, 0⟩ ∧ readyEvent m = none) ∧
    (b.moves = [.hardReset] ∧ readyEvent b = some ⟨0xA0, 0⟩ ∧ b.cmd = some 0x00) := by decide

/-- R290: a SOR that is ready, with a handler scripted, is discarded: not answered, no call made; after `settle` it is
answered. -/
theorem test_reset_discards_ready_event :
    let s : State := withSor (answering [.returns 1] sample)
    (nextOf (step { s with moves := [.hardReset] })).map (fun t => (t.event, t.log, t.replies, t.en)) =
      some (none, [], [.returns 1], false) ∧
    ((nextOf (step { s with moves := [.settle, .hardReset] })).map fun t => (t.event, t.log.length, t.replies, t.moves)) =
      some (none, 2, [], [.settle, .hardReset]) := by decide

theorem witness_StepKeepsTheRegisterInvariant : (withSor (answering [.returns 1] sample)).Inv ∧
    ∃ t, step (withSor (answering [.returns 1] sample)) = .next t := ⟨by decide, _, rfl⟩

theorem witness_StepKeepsTheLogLawful : (withSor (answering [.returns 1] sample)).LogLawful ∧
    ∃ t, step (withSor (answering [.returns 1] sample)) = .next t := ⟨by decide, _, rfl⟩

theorem witness_StepAnswersAndCallsAtMostOnce : ∃ t, step (withSor (answering [.returns 1] sample)) = .next t ∧
    (responses t.log).length = 1 ∧ (hookCalls t.log).length = 1 := ⟨_, rfl, by decide⟩

/-- A disabled engine that meets a shutdown word, an event, and both together. -/
theorem witness_InertUntilInit :
    let s : State := { State.reset with cmd := some 0x7F, moves := [.command 0x00, .raise ⟨0x60, 0⟩, .together ⟨0xA0, 0⟩ 0x01] }
    s.en = false ∧ noReset s.moves = true ∧ (∀ c, EnvMove.command c ∈ s.moves → c.getLsbD 7 = false) ∧
    (∀ w c, EnvMove.together w c ∈ s.moves → c.getLsbD 7 = false) ∧ (∀ c, s.cmd = some c → c.getLsbD 7 = false) ∧
    ∃ t, runSteps 3 s = .next t := by
  refine ⟨rfl, rfl, ?_, ?_, ?_, _, rfl⟩
  · intro c h; simp at h; subst h; rfl
  · intro w c h; simp at h; rw [h.2]; rfl
  · intro c h; simp at h; subst h; rfl

theorem witness_RepeatedReadsSendTheSameByte :
    let s : State := { sample with moves := [.raise ⟨0xA8, 0⟩] }
    s.Inv ∧ noReset s.moves = true ∧ ∃ t, runSteps 2 s = .next t ∧ sentBytes t.log = [0x3C] ∧
      ((hookCalls t.log).filter HookCall.isRead).length = ((hookCalls s.log).filter HookCall.isRead).length :=
  ⟨by decide, rfl, _, rfl, by decide, by decide⟩

/-- Two steps that go on, and a step that stops in each way. -/
theorem witness_PhaseInfluencesNothing :
    (∃ t, runSteps 2 { sample with moves := [.raise ⟨0x60, 0⟩] } = .next t) ∧
    runSteps 1 (withSor (answering [.hangs] sample)) = .fault .handlerNeverReturns ∧
    runSteps 1 { sample with cmd := some 0x80 } = .refused .initAddressZero := ⟨⟨_, rfl⟩, rfl, rfl⟩

theorem witness_UpperBufferBytesInfluenceNothing :
    (∃ t, runSteps 2 { sample with moves := [.raise ⟨0x80, 0x11⟩] } = .next t) ∧
    runSteps 1 (withSor (answering [.hangs] sample)) = .fault .handlerNeverReturns ∧
    runSteps 1 (withSor (answering [.commands] sample)) = .refused .commandInsideHandler := ⟨⟨_, rfl⟩, rfl, rfl⟩

theorem witness_ReachableStatesMeetTheInvariants : ∃ s, Reachable s ∧ s.en = true ∧ s.addr = 0x7F :=
  ⟨_, .step (.step (.reset ⟨true, true, []⟩ [.command 0xFF] []) rfl) rfl, by decide, by decide⟩

end Sys2Proof.Tests
end

namespace Sys2Proof.Proofs

open Sys2Proof.Machine

/-! ## Every function is a table (R6, R121) -/

/-- A table that lists a function's values on some codes gives each listed code its value. -/
theorem event?_map_of_mem {f : Byte → EventName} {codes : List Byte} {status : Byte} (h : status ∈ codes) :
    StatusMap.event? (codes.map fun c => (c, f c)) status = some (f status) := by
  induction codes with
  | nil => simp at h
  | cons c cs ih =>
    by_cases hc : c = status
    · simp [StatusMap.event?, hc]
    · have hcs : status ∈ cs := (List.mem_cons.mp h).resolve_left (Ne.symm hc)
      simpa [StatusMap.event?, hc] using ih hcs

theorem classify_of_event? {m : StatusMap} {status : Byte} {e : EventName} (h : m.event? status = some e) :
    classify m status = e := by
  simp [classify, h]

/-- All 256 status codes. -/
def allCodes : List Byte := (List.finRange 256).map BitVec.ofFin

theorem mem_allCodes (status : Byte) : status ∈ allCodes :=
  List.mem_map.mpr ⟨status.toFin, List.mem_finRange _, rfl⟩

/-- Settles O7: the table that lists a function's value at every code leaves nothing to the default. -/
theorem everyStatusMapIsCovered : Obligations.EveryStatusMapIsCovered := fun f =>
  ⟨allCodes.map fun c => (c, f c), fun status => classify_of_event? (event?_map_of_mem (mem_allCodes status))⟩

/-! ## What a step adds to the log (R11, R268, R31, R32) -/

/-- The most that SOR adds below its response: one hook call (R165). -/
theorem execSor_log {s t : State} (h : execSor s = .next t) :
    ∃ call : Option HookCall, t.log = .response .ack :: (call.toList.map Obs.hook ++ s.log) := by
  obtain ⟨u, rfl, hu⟩ := execSor_next h
  rcases hu with ⟨-, -, v, w, hx, rfl⟩ | ⟨-, -, rfl⟩ | ⟨-, -, v, w, hx, rfl⟩ | ⟨-, -, rfl⟩ | ⟨-, -, rfl⟩
  · exact ⟨some (.rd s.rxbuf.b0 v), by rw [hookExchange_frame hx]; simp⟩
  · exact ⟨none, by simp⟩
  · exact ⟨some (.wr s.rxbuf.b0 s.rxbuf.b1), by rw [hookExchange_frame hx]; simp⟩
  · exact ⟨none, by simp⟩
  · exact ⟨none, by simp⟩

/-- All that one operation can add to the log: an event's one lawful response on top of at most one hook call, or a host
command's lawful control levels. -/
theorem exec_log {i : Instr} {s t : State} (h : exec i s = .next t) :
    (∃ (r : Response) (call : Option HookCall), t.log = .response r :: (call.toList.map Obs.hook ++ s.log) ∧
      (Obs.response r).lawful = true) ∨
    (∃ l : ControlLevels, t.log = .control l :: s.log ∧ (Obs.control l).lawful = true) := by
  cases i with
  | amw | amwAl | gcm | gcmAl =>
    cases h; exact .inl ⟨.ack, none, by simp [addrMatchWrite], rfl⟩
  | draW d | draG d =>
    cases h; exact .inl ⟨.ack, none, by simp [dataReceivedAck], rfl⟩
  | drnW d | drnG d =>
    cases h; exact .inl ⟨.ackStop, none, by simp [dataReceivedNack, endReception, Config.recvNackStop, busReset], rfl⟩
  | berr | unh code | dsaLast =>
    cases h; exact .inl ⟨.ackStop, none, by simp [busReset], rfl⟩
  | amr | amrAl | dsa =>
    cases h; exact .inl ⟨Response.ack.withTx s.txpend, none, by simp [addrMatchRead, sendPending], rfl⟩
  | dsn =>
    cases h; exact .inl ⟨.ack, none, by simp, rfl⟩
  | sor =>
    obtain ⟨call, hlog⟩ := execSor_log h
    exact .inl ⟨.ack, call, hlog, rfl⟩
  | init a =>
    simp only [exec, execInit] at h
    split at h
    · cases h; exact .inr ⟨_, rfl, rfl⟩
    · cases h
  | shutdown =>
    cases h; exact .inr ⟨_, rfl, rfl⟩

theorem exec_keeps_logLawful {i : Instr} {s t : State} (h : exec i s = .next t) (hs : s.LogLawful) : t.LogLawful := by
  obtain ⟨r, call, hlog, hr⟩ | ⟨l, hlog, hl⟩ := exec_log h
  · have hcalls : (call.toList.map Obs.hook).all Obs.lawful = true := by cases call <;> rfl
    rw [State.LogLawful, hlog, List.all_cons, List.all_append, hr, hcalls, hs]; rfl
  · rw [State.LogLawful, hlog, List.all_cons, hl, hs]; rfl

/-- A move of the outside world adds nothing to the log; the hardware reset begins a new one (R290). -/
theorem applyMove_log (m : EnvMove) (s : State) : (applyMove m s).log = s.log ∨ (applyMove m s).log = [] := by
  cases m with
  | hardReset => exact .inr rfl
  | raise w | command c | together w c | setMask b | settle => exact .inl rfl

theorem outsideMove_keeps_logLawful {s : State} (hs : s.LogLawful) : (outsideMove s).LogLawful := by
  obtain hid | ⟨m, pre, post, -, hmove, -⟩ := outsideMove_cases s
  · rwa [hid]
  · rw [hmove, State.LogLawful]
    obtain hlog | hlog := applyMove_log m { s with moves := pre ++ post }
    · rw [hlog]; exact hs
    · rw [hlog]; rfl

/-- Settles O54: a step is one operation, on the state as it stands but for the command port and the count of draws, or
a move of the outside world. -/
theorem stepKeepsTheLogLawful : Obligations.StepKeepsTheLogLawful := by
  intro s t hs h
  obtain ⟨-, ⟨w, -, -, -, hrun⟩ | ⟨c, -, -, hrun⟩ | ⟨w, c, -, -, -, hrun | hrun⟩⟩ | ⟨-, rfl⟩ := step_cases h
  · exact exec_keeps_logLawful hrun hs
  · exact exec_keeps_logLawful (s := takeCommand s) hrun hs
  · exact exec_keeps_logLawful (s := takeCommand (nextDraw s)) hrun hs
  · exact exec_keeps_logLawful (s := nextDraw s) hrun hs
  · exact outsideMove_keeps_logLawful hs

end Sys2Proof.Proofs

namespace Sys2Proof.Proofs

open Sys2Proof.Machine

/-! ## What an operation does to each register (R21 to R34) -/

/-- INIT completes only with a legal address (R215, R217). -/
theorem execInit_next {a : BusAddr} {s t : State} (h : execInit a s = .next t) :
    legalAddr a = true ∧ t = observeControl (setPhase .idle (armController a s)) := by
  unfold execInit at h
  split at h
  · rename_i ha
    exact ⟨ha, (Host.Outcome.next.inj h).symm⟩
  · cases h

/-- The recovery that ends a reception answers with `stop` and goes Idle (R147, R148, R230). -/
@[simp] theorem endReception_eq (s : State) : endReception s = respond .ackStop (setPhase .idle s) := rfl

/-- SOR changes `TXPEND`, PHASE, the event port, the log and what handler calls use up, and nothing else (R160, R164). -/
theorem execSor_frame {s t : State} (h : execSor s = .next t) :
    t = { s with txpend := t.txpend, phase := .idle, event := none, log := t.log, replies := t.replies, draws := t.draws } := by
  obtain ⟨u, rfl, hu⟩ := execSor_next h
  rcases hu with ⟨-, -, v, w, hx, rfl⟩ | ⟨-, -, rfl⟩ | ⟨-, -, v, w, hx, rfl⟩ | ⟨-, -, rfl⟩ | ⟨-, -, rfl⟩
  · rw [hookExchange_frame hx]; rfl
  · rfl
  · rw [hookExchange_frame hx]; rfl
  · rfl
  · rfl

/-- SOR writes `TXPEND` for a read request only, with 0x00 where the read hook is unbound (R161, R201). -/
theorem execSor_txpend {s t : State} (h : execSor s = .next t) :
    t.txpend = s.txpend ∨ s.rxlen = 1 ∧ (s.params.rdBound = false → t.txpend = Config.unboundRead) := by
  obtain ⟨u, rfl, hu⟩ := execSor_next h
  rcases hu with ⟨hl, hb, -⟩ | ⟨hl, -, rfl⟩ | ⟨-, -, v, w, hx, rfl⟩ | ⟨-, -, rfl⟩ | ⟨-, -, rfl⟩
  · exact .inr ⟨hl, by simp [hb]⟩
  · exact .inr ⟨hl, by simp⟩
  · exact .inl (by rw [hookExchange_frame hx]; simp)
  · exact .inl (by simp)
  · exact .inl (by simp)

/-- Settles O26: SOR by its frame, every other event operation because none of its updates writes these fields. -/
theorem eventOperationsKeepControlState : Obligations.EventOperationsKeepControlState := by
  intro i s t hi h
  cases i with
  | amw | amwAl | gcm | gcmAl => cases h; simp [addrMatchWrite]
  | draW d | draG d => cases h; simp [dataReceivedAck]
  | drnW d | drnG d => cases h; simp [dataReceivedNack]
  | berr | unh code | dsaLast => cases h; simp [busReset]
  | amr | amrAl | dsa => cases h; simp [addrMatchRead, sendPending]
  | dsn => cases h; simp
  | sor => rw [execSor_frame h]; simp
  | init a | shutdown => cases hi

/-- Settles O28: every operation sets PHASE outright. -/
theorem phaseAfterEachOperation : Obligations.PhaseAfterEachOperation := by
  refine ⟨rfl, rfl, rfl, rfl, fun i s t h => ?_⟩
  cases i with
  | amw | amwAl | gcm | gcmAl => cases h; simp [addrMatchWrite]
  | draW d | draG d => cases h; simp [dataReceivedAck]
  | drnW d | drnG d => cases h; simp [dataReceivedNack]
  | berr | unh code | dsaLast => cases h; simp [busReset]
  | amr | amrAl | dsa => cases h; simp [addrMatchRead, sendPending]
  | dsn => cases h; simp
  | sor => rw [execSor_frame h]
  | init a => obtain ⟨-, rfl⟩ := execInit_next h; simp
  | shutdown => cases h; simp

/-- An operation that changes `TXPEND` is SOR with a read request; with the read hook unbound it writes 0x00 (R23, R201). -/
theorem exec_txpend {i : Instr} {s t : State} (h : exec i s = .next t) :
    t.txpend = s.txpend ∨
      (i = .sor ∧ s.rxlen = 1 ∧ (s.params.rdBound = false → t.txpend = Config.unboundRead)) := by
  cases i with
  | sor => exact (execSor_txpend h).imp_right fun hread => ⟨rfl, hread⟩
  | amw | amwAl | gcm | gcmAl => cases h; exact .inl (by simp [addrMatchWrite])
  | draW d | draG d => cases h; exact .inl (by simp [dataReceivedAck])
  | drnW d | drnG d => cases h; exact .inl (by simp [dataReceivedNack])
  | berr | unh code | dsaLast => cases h; exact .inl (by simp [busReset])
  | amr | amrAl | dsa => cases h; exact .inl (by simp [addrMatchRead, sendPending])
  | dsn => cases h; exact .inl (by simp)
  | init a => obtain ⟨-, rfl⟩ := execInit_next h; exact .inl (by simp)
  | shutdown => cases h; exact .inl (by simp)

/-- Settles O32, by `exec_txpend`. -/
theorem txpendIsWrittenByReadRequestsOnly : Obligations.TxpendIsWrittenByReadRequestsOnly := by
  intro i s t h hne
  obtain heq | ⟨hi, hl, -⟩ := exec_txpend h
  · exact absurd heq hne
  · exact ⟨hi, hl⟩

/-- Settles O33: the address matches clear the length, the data-received events append, and the others write no length. -/
theorem rxlenAfterEachOperation : Obligations.RxlenAfterEachOperation := by
  intro i s t h
  cases i with
  | amw | amwAl | gcm | gcmAl => cases h; simp [addrMatchWrite]
  | amr | amrAl => cases h; simp [addrMatchRead, sendPending]
  | draW d | draG d => cases h; simp [dataReceivedAck, append_rxlen_toNat]
  | drnW d | drnG d => cases h; simp [dataReceivedNack, append_rxlen_toNat]
  | berr | unh code | dsaLast => cases h; simp [busReset]
  | dsa => cases h; simp [sendPending]
  | dsn => cases h; simp
  | sor => rw [execSor_frame h]
  | init a => obtain ⟨-, rfl⟩ := execInit_next h; simp
  | shutdown => cases h; simp

/-- The one cell that `Append` changes is the one at `RXLEN`: there is none on a full buffer (R140). -/
theorem append_rxbuf_get (d : Byte) (s : State) (k : Fin 4) :
    (append d s).rxbuf.get k = if k.val = s.rxlen.toNat then d else s.rxbuf.get k := by
  by_cases hroom : s.rxlen.toNat < 4
  · rw [append_of_room hroom, RxBuf.get_put]
  · rw [append_of_full (by omega), if_neg (by omega)]

/-- An operation keeps the buffer, or it is a data-received event and appends its byte (R21, R140). -/
theorem exec_rxbuf {i : Instr} {s t : State} (h : exec i s = .next t) :
    t.rxbuf = s.rxbuf ∨
      ∃ d, i ∈ [Instr.draW d, .draG d, .drnW d, .drnG d] ∧ t.rxbuf = (append d s).rxbuf := by
  cases i with
  | draW d | draG d => cases h; exact .inr ⟨d, by simp, by simp [dataReceivedAck]⟩
  | drnW d | drnG d => cases h; exact .inr ⟨d, by simp, by simp [dataReceivedNack]⟩
  | amw | amwAl | gcm | gcmAl => cases h; exact .inl (by simp [addrMatchWrite])
  | berr | unh code | dsaLast => cases h; exact .inl (by simp [busReset])
  | amr | amrAl | dsa => cases h; exact .inl (by simp [addrMatchRead, sendPending])
  | dsn => cases h; exact .inl (by simp)
  | sor => exact .inl (by rw [execSor_frame h])
  | init a => obtain ⟨-, rfl⟩ := execInit_next h; exact .inl (by simp)
  | shutdown => cases h; exact .inl (by simp)

/-- Settles O34: only `Append` writes the buffer, and it writes one cell. -/
theorem rxbufIsWrittenAtRxlenOnly : Obligations.RxbufIsWrittenAtRxlenOnly := by
  intro i s t k h hne
  obtain hkept | ⟨d, hi, happ⟩ := exec_rxbuf h
  · exact absurd (by rw [hkept]) hne
  · rw [happ, append_rxbuf_get] at hne ⊢
    by_cases hk : k.val = s.rxlen.toNat
    · exact ⟨hk, d, if_pos hk, hi⟩
    · exact absurd (if_neg hk) hne

/-! ## The register invariant (R22, R31 to R34, 95_test_vectors.md 2.8) -/

theorem exec_keeps_rxlen_le {i : Instr} {s t : State} (h : exec i s = .next t) (hs : s.rxlen ≤ Config.rxCap) :
    t.rxlen ≤ Config.rxCap := by
  have hcap : Config.rxCap.toNat = 4 := rfl
  have hlen := rxlenAfterEachOperation i s t h
  rw [BitVec.le_def, hcap] at hs ⊢
  have happend : (if s.rxlen.toNat < 4 then s.rxlen.toNat + 1 else s.rxlen.toNat) ≤ 4 := by split <;> omega
  split at hlen <;> omega

/-- The straps are constants of a run: no operation writes them (R6, R35). -/
theorem exec_params {i : Instr} {s t : State} (h : exec i s = .next t) : t.params = s.params := by
  cases hi : i.isCommand with
  | false =>
    obtain ⟨-, -, -, -, -, hparams, -⟩ := eventOperationsKeepControlState i s t hi h
    exact hparams
  | true =>
    cases i with
    | init a => obtain ⟨-, rfl⟩ := execInit_next h; simp
    | shutdown => cases h; simp
    | _ => cases hi

/-- With the read hook unbound `TXPEND` stays 0x00 (95_test_vectors.md 2.8, item 7). -/
theorem exec_keeps_txpend_unbound {i : Instr} {s t : State} (h : exec i s = .next t)
    (hs : s.params.rdBound = false → s.txpend = Config.unboundRead) :
    t.params.rdBound = false → t.txpend = Config.unboundRead := by
  rw [exec_params h]
  intro hb
  obtain hkept | ⟨-, -, hread⟩ := exec_txpend h
  · rw [hkept, hs hb]
  · exact hread hb

theorem exec_keeps_inv {i : Instr} {s t : State} (h : exec i s = .next t) (hs : s.Inv) : t.Inv := by
  obtain ⟨hlen, hie, haa, hen, htx⟩ := hs
  have hcontrol : t.ie = t.en ∧ t.aa = t.en ∧ (t.en = true → legalAddr t.addr = true ∧ t.gcen = true) := by
    cases hi : i.isCommand with
    | false =>
      obtain ⟨ten, tie, taa, tgcen, taddr, -⟩ := eventOperationsKeepControlState i s t hi h
      rw [ten, tie, taa, tgcen, taddr]
      exact ⟨hie, haa, hen⟩
    | true =>
      cases i with
      | init a => obtain ⟨ha, rfl⟩ := execInit_next h; simp [ha]
      | shutdown => cases h; simp
      | _ => cases hi
  obtain ⟨hie', haa', hen'⟩ := hcontrol
  exact ⟨exec_keeps_rxlen_le h hlen, hie', haa', hen', exec_keeps_txpend_unbound h htx⟩

theorem hardReset_inv (s : State) : (hardReset s).Inv :=
  ⟨by rw [hardReset_rxlen]; decide, rfl, rfl, nofun, fun _ => rfl⟩

/-- A move of the outside world writes no register that the invariant reads, unless it is the hardware reset. -/
theorem applyMove_keeps_inv {s : State} (m : EnvMove) (hs : s.Inv) : (applyMove m s).Inv := by
  cases m with
  | hardReset => exact hardReset_inv s
  | raise w | command c | together w c | setMask b | settle => exact hs

/-- Settles O52: a step is one operation, on the state as it stands but for the command port and the count of draws, or
a move of the outside world. -/
theorem stepKeepsTheRegisterInvariant : Obligations.StepKeepsTheRegisterInvariant := by
  intro s t hs h
  obtain ⟨-, ⟨w, -, -, -, hrun⟩ | ⟨c, -, -, hrun⟩ | ⟨w, c, -, -, -, hrun | hrun⟩⟩ | ⟨-, rfl⟩ := step_cases h
  · exact exec_keeps_inv hrun hs
  · exact exec_keeps_inv (s := takeCommand s) hrun hs
  · exact exec_keeps_inv (s := takeCommand (nextDraw s)) hrun hs
  · exact exec_keeps_inv (s := nextDraw s) hrun hs
  · obtain hid | ⟨m, pre, post, -, hmove, -⟩ := outsideMove_cases s
    · rwa [hid]
    · rw [hmove]; exact applyMove_keeps_inv m hs

/-! ## Reset and the states it leads to (R39, R290, R295) -/

theorem resetWith_inv (p : Params) : (State.resetWith p).Inv :=
  ⟨(by decide : (0 : RxLen) ≤ Config.rxCap), rfl, rfl, nofun, fun _ => rfl⟩

theorem resetWith_logLawful (p : Params) : (State.resetWith p).LogLawful := rfl

/-- Settles O53: the reset values do not depend on the parameters. -/
theorem resetMeetsTheInvariants : Obligations.ResetMeetsTheInvariants :=
  ⟨resetWith_inv _, resetWith_logLawful _, fun p => ⟨resetWith_inv p, resetWith_logLawful p⟩⟩

/-- Settles O50: in mid-run the reset that comes next is the whole step. -/
theorem resetEstablishesTheResetValues : Obligations.ResetEstablishesTheResetValues := by
  refine ⟨fun p => ⟨rfl, rfl, rfl, rfl, rfl, rfl, rfl, rfl, rfl, rfl⟩, fun s rest hs => ?_⟩
  exact ⟨_, step_reset hs, rfl, rfl, rfl, rfl, rfl, rfl, rfl, rfl, rfl⟩

/-- Settles O60: both invariants hold at reset, whatever the outside world will do, and every step keeps them. -/
theorem reachableStatesMeetTheInvariants : Obligations.ReachableStatesMeetTheInvariants := by
  intro s hs
  induction hs with
  | reset p moves replies => exact ⟨resetWith_inv p, resetWith_logLawful p⟩
  | step _ h ih =>
    obtain ⟨hinv, hlog⟩ := ih
    exact ⟨stepKeepsTheRegisterInvariant _ _ hinv h, stepKeepsTheLogLawful _ _ hlog h⟩

/-! ## Noninterference: PHASE and the upper buffer bytes (R21, R25, R27) -/

/-- Two outcomes are alike: both go on, with results that `R` relates, or both stop in the same way. -/
inductive SameOutcome {α : Type} (R : α → α → Prop) :
    Host.Outcome α Fault Refusal → Host.Outcome α Fault Refusal → Prop where
  | next {a b : α} (h : R a b) : SameOutcome R (.next a) (.next b)
  | fault (f : Fault) : SameOutcome R (.fault f) (.fault f)
  | refused (r : Refusal) : SameOutcome R (.refused r) (.refused r)

section
variable {α β : Type} {R : α → α → Prop} {S : β → β → Prop} {o o' : Host.Outcome α Fault Refusal}

theorem SameOutcome.of_next (h : SameOutcome R o o') {a : α} (ha : o = .next a) : ∃ b, o' = .next b ∧ R a b := by
  cases h with
  | next hab => cases ha; exact ⟨_, rfl, hab⟩
  | fault f | refused r => cases ha

theorem SameOutcome.of_fault (h : SameOutcome R o o') {f : Fault} (hf : o = .fault f) : o' = .fault f := by
  cases h with
  | fault g => exact hf
  | next _ | refused r => cases hf

theorem SameOutcome.of_refused (h : SameOutcome R o o') {r : Refusal} (hr : o = .refused r) : o' = .refused r := by
  cases h with
  | refused q => exact hr
  | next _ | fault f => cases hr

theorem SameOutcome.andThen {f f' : α → Host.Outcome β Fault Refusal} (h : SameOutcome R o o')
    (hf : ∀ a b, R a b → SameOutcome S (f a) (f' b)) : SameOutcome S (andThen o f) (andThen o' f') := by
  cases h with
  | next hab => exact hf _ _ hab
  | fault e => exact .fault e
  | refused r => exact .refused r

end

/-- The state with another PHASE and another reception buffer. -/
def withHidden (q : Phase) (b : RxBuf) (s : State) : State := { s with phase := q, rxbuf := b }

/-- In what an observer of the outputs cannot tell PHASE and `RXBUF` apart: a relation on each, such that equal values are
related, related buffers hold the same operands of SOR (R97), and storing the same byte keeps buffers related. -/
structure HiddenParts where
  phase : Phase → Phase → Prop
  rxbuf : RxBuf → RxBuf → Prop
  phase_refl : ∀ p, phase p p
  rxbuf_refl : ∀ b, rxbuf b b
  rxbuf_operands : ∀ {b c}, rxbuf b c → b.get 0 = c.get 0 ∧ b.get 1 = c.get 1
  rxbuf_put : ∀ {b c}, rxbuf b c → ∀ k v, rxbuf (b.put k v) (c.put k v)

/-- Two states that agree in all but the hidden parts of PHASE and `RXBUF`. -/
inductive Agree (H : HiddenParts) (s : State) : State → Prop where
  | intro (q : Phase) (b : RxBuf) (hq : H.phase s.phase q) (hb : H.rxbuf s.rxbuf b) : Agree H s (withHidden q b s)

section
variable {H : HiddenParts} {s s' : State}

/-- An update that neither reads nor writes PHASE and `RXBUF`. -/
theorem Agree.map {f : State → State} (hf : ∀ q b u, f (withHidden q b u) = withHidden q b (f u)) (h : Agree H s s') :
    Agree H (f s) (f s') := by
  obtain ⟨q, b, hq, hb⟩ := h
  have hself : f s = withHidden s.phase s.rxbuf (f s) := hf s.phase s.rxbuf s
  rw [hf]
  exact ⟨q, b, by rw [hself]; exact hq, by rw [hself]; exact hb⟩

/-- An update that writes PHASE, whatever it was, and neither reads nor writes `RXBUF` (R26). -/
theorem Agree.map_setPhase {f : State → State} (p : Phase)
    (hf : ∀ q b u, f (withHidden q b u) = withHidden p b (f u)) (h : Agree H s s') : Agree H (f s) (f s') := by
  obtain ⟨q, b, -, hb⟩ := h
  have hself : f s = withHidden p s.rxbuf (f s) := hf s.phase s.rxbuf s
  rw [hf]
  exact ⟨p, b, by rw [hself]; exact H.phase_refl p, by rw [hself]; exact hb⟩

/-- The last action of an event operation: it sets PHASE and answers (R26, R261). -/
theorem Agree.answer (h : Agree H s s') (r : Response) (p : Phase) :
    Agree H (respond r (setPhase p s)) (respond r (setPhase p s')) :=
  h.map_setPhase (f := fun u => respond r (setPhase p u)) p fun _ _ _ => by unfold respond; split <;> rfl

theorem Agree.append (h : Agree H s s') (d : Byte) : Agree H (append d s) (append d s') := by
  obtain ⟨q, b, hq, hb⟩ := h
  by_cases hroom : s.rxlen.toNat < 4
  · rw [append_of_room hroom, append_of_room (s := withHidden q b s) hroom]
    exact ⟨q, b.put s.rxlen d, hq, H.rxbuf_put hb _ _⟩
  · rw [append_of_full (by omega), append_of_full (s := withHidden q b s) (Nat.le_of_not_lt hroom)]
    exact ⟨q, b, hq, hb⟩

/-- The hardware reset draws the same values for both (R290). -/
theorem Agree.hardReset (h : Agree H s s') : Agree H (hardReset s) (hardReset s') := by
  obtain ⟨q, b, -, -⟩ := h
  exact ⟨_, _, H.phase_refl _, H.rxbuf_refl _⟩

theorem Agree.request_eq (h : Agree H s s') : request s = request s' := by
  obtain ⟨q, b, -, hb⟩ := h
  obtain ⟨h0, h1⟩ := H.rxbuf_operands hb
  simp only [request, h0, h1]
  rfl

theorem Agree.hookExchange (h : Agree H s s') (i : Byte) :
    SameOutcome (fun x y => x.1 = y.1 ∧ Agree H x.2 y.2) (hookExchange i s) (hookExchange i s') := by
  obtain ⟨q, b, hq, hb⟩ := h
  have hreplies : (withHidden q b s).replies = s.replies := rfl
  unfold Machine.hookExchange
  rw [hreplies]
  split
  · exact .next ⟨rfl, ⟨q, b, hq, hb⟩⟩
  · exact .next ⟨rfl, ⟨q, b, hq, hb⟩⟩
  · exact .fault _
  · exact .refused _

theorem Agree.params_eq (h : Agree H s s') : s.params = s'.params := by
  obtain ⟨q, b, -, -⟩ := h; rfl

theorem Agree.regRead (h : Agree H s s') (i : Byte) :
    SameOutcome (fun x y => x.1 = y.1 ∧ Agree H x.2 y.2) (regRead i s) (regRead i s') := by
  unfold Machine.regRead
  rw [h.params_eq]
  split
  · refine (h.hookExchange i).andThen ?_
    rintro ⟨v, t⟩ ⟨v', t'⟩ ⟨rfl, ht⟩
    exact .next ⟨rfl, ht.map (f := observe (.hook (.rd i v))) fun _ _ _ => rfl⟩
  · exact .next ⟨rfl, h⟩

theorem Agree.regWrite (h : Agree H s s') (i v : Byte) : SameOutcome (Agree H) (regWrite i v s) (regWrite i v s') := by
  unfold Machine.regWrite
  rw [h.params_eq]
  split
  · exact (h.hookExchange i).andThen fun _ _ hx => .next (hx.2.map fun _ _ _ => rfl)
  · exact .next h

theorem Agree.dispatchRequest (h : Agree H s s') (r : Request) :
    SameOutcome (Agree H) (dispatchRequest r s) (dispatchRequest r s') := by
  cases r with
  | read i =>
    refine (h.regRead i).andThen ?_
    rintro ⟨v, t⟩ ⟨v', t'⟩ ⟨rfl, ht⟩
    exact .next (ht.map fun _ _ _ => rfl)
  | write i v => exact h.regWrite i v
  | malformed => exact .next h

/-- One operation does the same to states that agree: only `Append` and SOR touch the buffer at all. -/
theorem Agree.exec (h : Agree H s s') (i : Instr) : SameOutcome (Agree H) (exec i s) (exec i s') := by
  cases i with
  | amw | amwAl | gcm | gcmAl => exact .next (h.map_setPhase .receiving fun _ _ _ => rfl)
  | amr | amrAl => exact .next (h.map_setPhase .txFirst fun _ _ _ => rfl)
  | dsa => exact .next (h.map_setPhase .txSubsequent fun _ _ _ => rfl)
  | berr | unh code | dsaLast => exact .next (h.answer .ackStop .idle)
  | dsn => exact .next (h.answer .ack .idle)
  | draW d | draG d => exact .next ((h.append d).answer .ack .receiving)
  | drnW d | drnG d => exact .next ((h.append d).answer .ackStop .idle)
  | sor =>
    simp only [Machine.exec, execSor, h.request_eq]
    exact (h.dispatchRequest _).andThen fun _ _ ht => .next (ht.answer .ack .idle)
  | shutdown =>
    exact .next (h.map_setPhase (f := fun u => observeControl (setPhase .idle (disableController u))) .idle fun _ _ _ => rfl)
  | init a =>
    simp only [Machine.exec, execInit]
    split
    · exact .next (h.map_setPhase (f := fun u => observeControl (setPhase .idle (armController a u))) .idle fun _ _ _ => rfl)
    · exact .refused _

theorem Agree.runEvent (h : Agree H s s') (w : EventWord) : SameOutcome (Agree H) (runEvent w s) (runEvent w s') := by
  unfold Machine.runEvent
  rw [h.params_eq]
  exact h.exec _

theorem Agree.runCommand (h : Agree H s s') (c : Byte) : SameOutcome (Agree H) (runCommand c s) (runCommand c s') :=
  (h.map (f := takeCommand) fun _ _ _ => rfl).exec _

theorem Agree.runRace (h : Agree H s s') (w : EventWord) (c : Byte) :
    SameOutcome (Agree H) (runRace w c s) (runRace w c s') := by
  have hdraw : Agree H (nextDraw s) (nextDraw s') := h.map fun _ _ _ => rfl
  have hdraws : s.draws = s'.draws := by obtain ⟨q, b, -, -⟩ := h; rfl
  unfold Machine.runRace
  rw [hdraws]
  split
  · exact hdraw.runCommand c
  · exact hdraw.runEvent w

theorem Agree.applyMove (h : Agree H s s') (m : EnvMove) : Agree H (applyMove m s) (applyMove m s') := by
  cases m with
  | hardReset => exact h.hardReset
  | raise w | command c | together w c | setMask b => exact h.map fun _ _ _ => rfl
  | settle => exact h

theorem Agree.outsideMove (h : Agree H s s') : Agree H (outsideMove s) (outsideMove s') := by
  have hmove : nextMove s.event.isSome s.moves = nextMove s'.event.isSome s'.moves := by obtain ⟨q, b, -, -⟩ := h; rfl
  unfold Machine.outsideMove
  rw [hmove]
  split
  · exact h
  · rename_i m rest _
    exact (h.map (f := fun u => { u with moves := rest }) fun _ _ _ => rfl).applyMove m

theorem Agree.turn_eq (h : Agree H s s') : turn s = turn s' := by
  obtain ⟨q, b, -, -⟩ := h; rfl

theorem Agree.step (h : Agree H s s') : SameOutcome (Agree H) (step s) (step s') := by
  unfold Machine.step
  rw [h.turn_eq]
  split
  · exact h.runEvent _
  · exact h.runCommand _
  · exact h.runRace _ _
  · exact .next h.outsideMove

theorem Agree.runSteps (h : Agree H s s') (k : Nat) : SameOutcome (Agree H) (runSteps k s) (runSteps k s') := by
  induction k generalizing s s' with
  | zero => exact .next h
  | succ k ih => exact h.step.andThen fun _ _ => ih

end

/-- All of PHASE is hidden and nothing of `RXBUF` (R25). -/
def phaseHidden : HiddenParts where
  phase _ _ := True
  rxbuf := Eq
  phase_refl _ := trivial
  rxbuf_refl _ := rfl
  rxbuf_operands := by rintro b _ rfl; exact ⟨rfl, rfl⟩
  rxbuf_put := by rintro b _ rfl k v; rfl

/-- Settles O58: states that agree in all but PHASE run alike. -/
theorem phaseInfluencesNothing : Obligations.PhaseInfluencesNothing := by
  intro k s p
  have hrun := Agree.runSteps (H := phaseHidden) (s := s) ⟨p, s.rxbuf, trivial, rfl⟩ k
  refine ⟨fun t ht => ?_, fun f => hrun.of_fault, fun r => hrun.of_refused⟩
  obtain ⟨_, hu, ⟨q, b, -, hb⟩⟩ := hrun.of_next ht
  obtain rfl : t.rxbuf = b := hb
  exact ⟨q, hu⟩

/-- `RXBUF[2]` and `RXBUF[3]` are hidden and nothing of PHASE (R21). -/
def upperBytesHidden : HiddenParts where
  phase := Eq
  rxbuf b c := b.get 0 = c.get 0 ∧ b.get 1 = c.get 1
  phase_refl _ := rfl
  rxbuf_refl _ := ⟨rfl, rfl⟩
  rxbuf_operands := id
  rxbuf_put := by rintro b c ⟨h0, h1⟩ k v; simp only [RxBuf.get_put, h0, h1, and_self]

/-- Settles O59: states that agree in all but `RXBUF[2]` and `RXBUF[3]` run alike. -/
theorem upperBufferBytesInfluenceNothing : Obligations.UpperBufferBytesInfluenceNothing := by
  intro k s x y
  have hrun := Agree.runSteps (H := upperBytesHidden) (s := s) ⟨s.phase, { s.rxbuf with b2 := x, b3 := y }, rfl, rfl, rfl⟩ k
  refine ⟨fun t ht => ?_, fun f => hrun.of_fault, fun r => hrun.of_refused⟩
  obtain ⟨_, hu, ⟨q, b, hq, h0, h1⟩⟩ := hrun.of_next ht
  obtain rfl : t.phase = q := hq
  have hb : b = { t.rxbuf with b2 := b.b2, b3 := b.b3 } := by
    cases b; simpa [RxBuf.get, eq_comm] using And.intro h0 h1
  exact ⟨b.b2, b.b3, hb ▸ hu⟩

end Sys2Proof.Proofs

namespace Sys2Proof.Proofs

open Sys2Proof.Machine

/-! ## A command and an event that are ready together (R70) -/

theorem turn_race {s : State} {w : EventWord} {c : Byte} (hs : resetStrikes s = false) (hw : readyEvent s = some w)
    (hc : s.cmd = some c) : turn s = .race w c := by
  simp [turn, hs, hw, hc]

/-- Settles O49: the two are in a race, and the free value says which one the step runs. -/
theorem commandAndEventGoOneAtATime : Obligations.CommandAndEventGoOneAtATime := by
  intro s w c hw hc hen hie hmask hs
  have hready : readyEvent s = some w :=
    (readyEvent_eq_some_iff s w).mpr ⟨hw, (eventsTaken_iff s).mpr ⟨hen, hie, hmask⟩⟩
  have hrace : step s = runRace w c s := by simp [step, turn_race hs hready hc]
  rw [hrace, runRace]
  split
  · exact .inl rfl
  · exact .inr rfl

/-! ## The moves to come hold no hardware reset (R290) -/

theorem noReset_iff (ms : List EnvMove) : noReset ms = true ↔ .hardReset ∉ ms := by
  induction ms with
  | nil => simp [noReset]
  | cons m ms ih =>
    cases m with
    | hardReset => simp [noReset]
    | raise w | command c | together w c | setMask b | settle => simpa [noReset] using ih

theorem exec_moves {i : Instr} {s t : State} (h : exec i s = .next t) : t.moves = s.moves := by
  cases hi : i.isCommand with
  | false =>
    obtain ⟨-, -, -, -, -, -, -, -, hmoves⟩ := eventOperationsKeepControlState i s t hi h
    exact hmoves
  | true =>
    cases i with
    | init a => obtain ⟨-, rfl⟩ := execInit_next h; simp
    | shutdown => cases h; simp
    | _ => cases hi

@[simp] theorem applyMove_moves (m : EnvMove) (s : State) : (applyMove m s).moves = s.moves := by
  cases m <;> rfl

theorem outsideMove_moves_sublist (s : State) : (outsideMove s).moves.Sublist s.moves := by
  obtain hid | ⟨m, pre, post, hmoves, hmove, -⟩ := outsideMove_cases s
  · rw [hid]
  · rw [hmove, applyMove_moves, hmoves]
    exact (List.sublist_cons_self m post).append_left pre

/-- A step uses up at most one of the moves to come and adds none (log 1). -/
theorem step_moves_sublist {s t : State} (h : step s = .next t) : t.moves.Sublist s.moves := by
  obtain ⟨-, ⟨w, -, -, -, hrun⟩ | ⟨c, -, -, hrun⟩ | ⟨w, c, -, -, -, hrun | hrun⟩⟩ | ⟨-, rfl⟩ := step_cases h
  · rw [exec_moves hrun]
  · rw [exec_moves hrun]; exact .refl _
  · rw [exec_moves hrun]; exact .refl _
  · rw [exec_moves hrun]; exact .refl _
  · exact outsideMove_moves_sublist s

theorem step_keeps_noReset {s t : State} (h : step s = .next t) (hs : noReset s.moves = true) :
    noReset t.moves = true := by
  rw [noReset_iff] at hs ⊢
  exact fun hmem => hs ((step_moves_sublist h).subset hmem)

/-! ## Between read calls the byte sent is constant (R73, R186) -/

@[simp] theorem sentBytes_response (r : Response) (l : List Obs) :
    sentBytes (.response r :: l) = r.tx.toList ++ sentBytes l := by
  cases h : r.tx <;> simp [sentBytes, responses, h]

@[simp] theorem sentBytes_hook (c : HookCall) (l : List Obs) : sentBytes (.hook c :: l) = sentBytes l := rfl
@[simp] theorem sentBytes_control (c : ControlLevels) (l : List Obs) : sentBytes (.control c :: l) = sentBytes l := rfl

/-- How many read calls a log shows (R295 b). -/
def readCount (l : List Obs) : Nat := ((hookCalls l).filter HookCall.isRead).length

@[simp] theorem readCount_response (r : Response) (l : List Obs) : readCount (.response r :: l) = readCount l := rfl
@[simp] theorem readCount_rd (i v : Byte) (l : List Obs) : readCount (.hook (.rd i v) :: l) = readCount l + 1 := rfl
@[simp] theorem readCount_wr (i v : Byte) (l : List Obs) : readCount (.hook (.wr i v) :: l) = readCount l := rfl
@[simp] theorem readCount_control (c : ControlLevels) (l : List Obs) : readCount (.control c :: l) = readCount l := rfl

/-- What a stretch of a run from `s` to `t` can be: some read call is made, or none is and `TXPEND` is kept and all that is
sent is copies of it. -/
inductive ReadsOrRepeats (s t : State) : Prop where
  | reads (hreads : readCount s.log < readCount t.log)
  | repeats (hreads : readCount t.log = readCount s.log) (htxpend : t.txpend = s.txpend) (n : Nat)
      (hsent : sentBytes t.log = List.replicate n s.txpend ++ sentBytes s.log)

namespace ReadsOrRepeats

theorem of_log_eq {s t : State} (hlog : t.log = s.log) (htxpend : t.txpend = s.txpend) : ReadsOrRepeats s t :=
  .repeats (by rw [hlog]) htxpend 0 (by rw [hlog]; rfl)

theorem trans {s t u : State} (hst : ReadsOrRepeats s t) (htu : ReadsOrRepeats t u) : ReadsOrRepeats s u := by
  cases hst with
  | reads hst =>
    cases htu with
    | reads htu => exact .reads (hst.trans htu)
    | repeats htu => exact .reads (htu ▸ hst)
  | repeats hst htxpend n hsent =>
    cases htu with
    | reads htu => exact .reads (hst ▸ htu)
    | repeats htu htxpend' m hsent' =>
      refine .repeats (htu.trans hst) (htxpend'.trans htxpend) (m + n) ?_
      rw [hsent', hsent, htxpend, ← List.append_assoc, List.replicate_append_replicate]

/-- What the start of a stretch holds beside its log and `TXPEND` does not matter. -/
theorem congr_left {s u t : State} (h : ReadsOrRepeats u t) (hlog : u.log = s.log) (htxpend : u.txpend = s.txpend) :
    ReadsOrRepeats s t :=
  (of_log_eq hlog htxpend).trans h

/-- An answer that sends nothing. -/
theorem of_silent {s t : State} {r : Response} (hlog : t.log = .response r :: s.log) (hr : r.tx = none)
    (htxpend : t.txpend = s.txpend) : ReadsOrRepeats s t :=
  .repeats (by simp [hlog]) htxpend 0 (by simp [hlog, hr])

end ReadsOrRepeats

/-- The byte an operation sends is `TXPEND` (R180). -/
theorem sendPending_repeats (p : Phase) (s : State) : ReadsOrRepeats s (sendPending p s) :=
  .repeats (by simp [sendPending]) (by simp [sendPending]) 1 (by simp [sendPending])

/-- SOR makes a read call, or writes the 0x00 that an unbound read hook has `TXPEND` hold already (R201), or keeps it. -/
theorem execSor_readsOrRepeats {s t : State} (h : execSor s = .next t)
    (hs : s.params.rdBound = false → s.txpend = Config.unboundRead) : ReadsOrRepeats s t := by
  obtain ⟨u, rfl, hu⟩ := execSor_next h
  rcases hu with ⟨-, -, v, w, hx, rfl⟩ | ⟨-, hb, rfl⟩ | ⟨-, -, v, w, hx, rfl⟩ | ⟨-, -, rfl⟩ | ⟨-, -, rfl⟩
  · rw [hookExchange_frame hx]; exact .reads (by simp)
  · exact .of_silent (r := .ack) (by simp) rfl (by simp [hs hb])
  · rw [hookExchange_frame hx]; exact .repeats (by simp) (by simp) 0 (by simp)
  · exact .of_silent (r := .ack) (by simp) rfl (by simp)
  · exact .of_silent (r := .ack) (by simp) rfl (by simp)

theorem exec_readsOrRepeats {i : Instr} {s t : State} (h : exec i s = .next t)
    (hs : s.params.rdBound = false → s.txpend = Config.unboundRead) : ReadsOrRepeats s t := by
  cases i with
  | amw | amwAl | gcm | gcmAl =>
    cases h; exact .of_silent (r := .ack) (by simp [addrMatchWrite]) rfl (by simp [addrMatchWrite])
  | draW d | draG d =>
    cases h; exact .of_silent (r := .ack) (by simp [dataReceivedAck]) rfl (by simp [dataReceivedAck])
  | drnW d | drnG d =>
    cases h; exact .of_silent (r := .ackStop) (by simp [dataReceivedNack]) rfl (by simp [dataReceivedNack])
  | berr | unh code | dsaLast =>
    cases h; exact .of_silent (r := .ackStop) (by simp [busReset]) rfl (by simp [busReset])
  | dsn => cases h; exact .of_silent (r := .ack) (by simp) rfl (by simp)
  | amr | amrAl => cases h; exact (sendPending_repeats .txFirst (clearRx s)).congr_left rfl rfl
  | dsa => cases h; exact sendPending_repeats .txSubsequent s
  | sor => exact execSor_readsOrRepeats h hs
  | init a => obtain ⟨-, rfl⟩ := execInit_next h; exact .repeats (by simp) (by simp) 0 (by simp)
  | shutdown => cases h; exact .repeats (by simp) (by simp) 0 (by simp)

theorem applyMove_readsOrRepeats {m : EnvMove} (hm : m ≠ .hardReset) (s : State) : ReadsOrRepeats s (applyMove m s) := by
  cases m with
  | hardReset => exact absurd rfl hm
  | raise w | command c | together w c | setMask b | settle => exact .of_log_eq rfl rfl

theorem outsideMove_readsOrRepeats {s : State} (hs : noReset s.moves = true) : ReadsOrRepeats s (outsideMove s) := by
  obtain hid | ⟨m, pre, post, hmoves, hmove, -⟩ := outsideMove_cases s
  · exact .of_log_eq (by rw [hid]) (by rw [hid])
  · have hm : m ≠ .hardReset := by
      rintro rfl
      exact (noReset_iff _).mp hs (by simp [hmoves])
    rw [hmove]
    exact (applyMove_readsOrRepeats hm { s with moves := pre ++ post }).congr_left rfl rfl

theorem step_readsOrRepeats {s t : State} (h : step s = .next t) (hinv : s.Inv) (hs : noReset s.moves = true) :
    ReadsOrRepeats s t := by
  obtain ⟨-, -, -, -, htx⟩ := hinv
  obtain ⟨-, ⟨w, -, -, -, hrun⟩ | ⟨c, -, -, hrun⟩ | ⟨w, c, -, -, -, hrun | hrun⟩⟩ | ⟨-, rfl⟩ := step_cases h
  · exact exec_readsOrRepeats hrun htx
  · exact (exec_readsOrRepeats (s := takeCommand s) hrun htx).congr_left rfl rfl
  · exact (exec_readsOrRepeats (s := takeCommand (nextDraw s)) hrun htx).congr_left rfl rfl
  · exact (exec_readsOrRepeats (s := nextDraw s) hrun htx).congr_left rfl rfl
  · exact outsideMove_readsOrRepeats hs

theorem runSteps_readsOrRepeats {k : Nat} {s t : State} (h : runSteps k s = .next t) (hinv : s.Inv)
    (hs : noReset s.moves = true) : ReadsOrRepeats s t := by
  induction k generalizing s with
  | zero => cases h; exact .of_log_eq rfl rfl
  | succ k ih =>
    obtain ⟨u, hu, ht⟩ := andThen_eq_next.mp h
    exact (step_readsOrRepeats hu hinv hs).trans
      (ih ht (stepKeepsTheRegisterInvariant s u hinv hu) (step_keeps_noReset hu hs))

/-- Settles O57: along a run the number of read calls never falls, so where it is the same at the end no step made one. -/
theorem repeatedReadsSendTheSameByte : Obligations.RepeatedReadsSendTheSameByte := by
  intro k s t hinv hs hrun hcalls
  have heq : readCount t.log = readCount s.log := hcalls
  cases runSteps_readsOrRepeats hrun hinv hs with
  | reads hlt => omega
  | repeats _ htxpend n hsent => exact ⟨htxpend, n, hsent⟩

end Sys2Proof.Proofs

namespace Sys2Proof.Proofs

open Sys2Proof.Machine

/-! ## Status codes (R91, R92) -/

/-- Masking off the bits that are ignored leaves the event code (R91). -/
theorem maskStatus_eq_statusOfCode : ∀ status : Byte, maskStatus status = statusOfCode (codeOf status) := by
  decide

@[simp] theorem codeOf_statusOfCode (code : EventCode) : codeOf (statusOfCode code) = code :=
  BitVec.extractLsb'_append_eq_left

@[simp] theorem maskStatus_statusOfCode (code : EventCode) : maskStatus (statusOfCode code) = statusOfCode code := by
  rw [maskStatus_eq_statusOfCode, codeOf_statusOfCode]

/-- The default table reads the event code alone (R91, R123). -/
theorem classifyDefault_statusOfCode_codeOf (status : Byte) :
    classifyDefault status = classifyDefault (statusOfCode (codeOf status)) := by
  rw [classifyDefault, maskStatus_eq_statusOfCode, classifyDefault, maskStatus_statusOfCode]

/-- Settles O1: rows and default table both read the event code alone, and there are thirty-two event codes. -/
theorem everyStatusCodeHasExactlyOneRow : Obligations.EveryStatusCodeHasExactlyOneRow := by
  intro status
  have hcodes : ∀ code : EventCode,
      (eventRows.filter (fun r => decide (statusOfCode code = r.value))).map EventRow.name =
        [classifyDefault (statusOfCode code)] := by decide
  simp only [EventRow.covers, maskStatus_eq_statusOfCode status, classifyDefault_statusOfCode_codeOf status]
  exact hcodes (codeOf status)

theorem classifyDefault_of_unhandledCode :
    ∀ code : EventCode, unhandledCode code = true → classifyDefault (statusOfCode code) = .unh := by
  decide

/-- An event's instruction depends on no more of the status code than the event code (R91). -/
theorem toInstr_statusOfCode_codeOf (e : EventName) (status d : Byte) :
    e.toInstr ⟨status, d⟩ = e.toInstr ⟨statusOfCode (codeOf status), d⟩ := by
  cases e with
  | unh => rw [EventName.toInstr, EventName.toInstr, codeOf_statusOfCode]
  | amr | amrAl | dsa | dsn | dsaLast | amw | amwAl | gcm | gcmAl | draW | draG | drnW | drnG | sor | berr => rfl

/-! ## The operand of an event (R93) -/

/-- The four data-received events, which take `data_in` as their operand (R93). -/
def carriesData (e : EventName) : Bool := decide (e ∈ [EventName.draW, .draG, .drnW, .drnG])

/-- No other event's instruction depends on `data_in` (R93). -/
theorem toInstr_ignores_dataIn {e : EventName} (he : carriesData e = false) (status d d' : Byte) :
    e.toInstr ⟨status, d⟩ = e.toInstr ⟨status, d'⟩ := by
  cases e with
  | draW | draG | drnW | drnG => cases he
  | amr | amrAl | dsa | dsn | dsaLast | amw | amwAl | gcm | gcmAl | sor | berr | unh => rfl

/-- Settles O6: `decodeEvent` is the classified event's instruction, and its operand is what `toInstr` reads. -/
theorem dataInIsOperandOfDataReceivedOnly : Obligations.DataInIsOperandOfDataReceivedOnly := by
  intro m status d
  refine ⟨fun h => ?_, fun h => ?_, fun h => ?_, fun h => ?_, fun h d' => ?_⟩
  · simp only [decodeEvent, h, EventName.toInstr]
  · simp only [decodeEvent, h, EventName.toInstr]
  · simp only [decodeEvent, h, EventName.toInstr]
  · simp only [decodeEvent, h, EventName.toInstr]
  · exact toInstr_ignores_dataIn (decide_eq_false h) status d' d

/-! ## Words on their ports (R90, R94; the layout of log 15) -/

@[simp] theorem decode_eventBytes (status d : Byte) : decode [status, d, 0] = .ok (decodeEvent [] ⟨status, d⟩) := rfl

@[simp] theorem decode_commandBytes (c : Byte) : decode [c, 0, 1] = .ok (decodeCommand c) := rfl

theorem decode_bytes (p : PortWord) : decode p.bytes = .ok (decodePortWord [] p) := by
  cases p <;> rfl

/-- Settles O2, by evaluating the decoder at each word. -/
theorem wordsOfTheTableDecode : Obligations.WordsOfTheTableDecode :=
  ⟨rfl, rfl, rfl, rfl, rfl, rfl, rfl, rfl, rfl, rfl⟩

/-- Settles O5: the port byte decides, and any other number of bytes is no word. -/
theorem decoderRejectsByName : Obligations.DecoderRejectsByName := by
  refine ⟨fun w d => ⟨_, decode_eventBytes w d⟩, fun w => ⟨_, decode_commandBytes w⟩, fun w d hd => ?_,
    fun w d p h0 h1 => ?_, fun bs hlen => ?_⟩
  · have hport : portWordOfBytes [w, d, 1] = .error .operandOnCommand := if_neg hd
    rw [decode, hport]
  · have hport : portWordOfBytes [w, d, p] = .error .noSuchPort := (if_neg h0).trans (if_neg h1)
    rw [decode, hport]
  · match bs with
    | [] | [_] | [_, _] | _ :: _ :: _ :: _ :: _ => rfl
    | [_, _, _] => exact absurd rfl hlen

/-- INIT's word has `op` = 1 and the address below it (R94). -/
theorem decodeCommand_init (a : BusAddr) : decodeCommand ((1 : BitVec 1) ++ a) = .init a := by
  have hop : ((1 : BitVec 1) ++ a).getLsbD 7 = true := by
    rw [BitVec.getLsbD_append]; rfl
  have haddr : ((1 : BitVec 1) ++ a).extractLsb' 0 7 = a := BitVec.extractLsb'_append_eq_right
  rw [decodeCommand, if_pos hop, haddr]

/-- An event word is read as the instruction of its code's event, with its operand (R92, R93). -/
theorem decodePortWord_event {status : Byte} {e : EventName} (h : classifyDefault status = e) (d : Byte) :
    decodePortWord [] (.event ⟨status, d⟩) = e.toInstr ⟨status, d⟩ := by
  rw [← h]; rfl

/-- A well-formed instruction's word is read as that instruction on its port (R92 to R94). -/
theorem decodePortWord_encodePortWord {i : Instr} (hwf : i.wf = true) : decodePortWord [] (encodePortWord i) = i := by
  cases i with
  | unh code =>
    rw [encodePortWord, decodePortWord_event (classifyDefault_of_unhandledCode code hwf), EventName.toInstr,
      codeOf_statusOfCode]
  | init a => exact decodeCommand_init a
  | berr | amw | amwAl | gcm | gcmAl | sor | amr | amrAl | dsa | dsn | dsaLast | shutdown => rfl
  | draW d => exact decodePortWord_event (e := .draW) rfl d
  | drnW d => exact decodePortWord_event (e := .drnW) rfl d
  | draG d => exact decodePortWord_event (e := .draG) rfl d
  | drnG d => exact decodePortWord_event (e := .drnG) rfl d

/-- Settles O3: the bytes are those of the word on its port, and the word is read as the instruction. -/
theorem decodeOfEncode : Obligations.DecodeOfEncode := by
  intro i hwf
  rw [encode, decode_bytes, decodePortWord_encodePortWord hwf]

/-- The encoder writes an event's operand where the event has one, and 0 where it has none; the status code it writes does
not depend on `data_in` (R93, log 27). -/
theorem encodePortWord_toInstr {e : EventName} {status v : Byte} (d : Byte)
    (h : encodePortWord (e.toInstr ⟨status, 0⟩) = .event ⟨v, 0⟩) :
    encodePortWord (e.toInstr ⟨status, d⟩) = .event ⟨v, if carriesData e then d else 0⟩ := by
  cases e with
  | draW | draG | drnW | drnG => cases h; rfl
  | amr | amrAl | dsa | dsn | dsaLast | amw | amwAl | gcm | gcmAl | sor | berr | unh => exact h

/-- An event word, decoded and encoded: the code that is read stays, the bits that are ignored are 0 (R91, log 27). -/
theorem encodePortWord_classifyDefault (status d : Byte) :
    encodePortWord ((classifyDefault status).toInstr ⟨status, d⟩) =
      .event ⟨maskStatus status, if carriesData (classifyDefault status) then d else 0⟩ := by
  have hcodes : ∀ code : EventCode, encodePortWord ((classifyDefault (statusOfCode code)).toInstr ⟨statusOfCode code, 0⟩) =
      .event ⟨statusOfCode code, 0⟩ := by decide
  refine encodePortWord_toInstr d ?_
  rw [toInstr_statusOfCode_codeOf, maskStatus_eq_statusOfCode, classifyDefault_statusOfCode_codeOf, hcodes]

/-- The four codes of the data-received events (R92). -/
theorem carriesData_classifyDefault (status : Byte) :
    carriesData (classifyDefault status) = true ↔ maskStatus status ∈ [(0x80 : Byte), 0x88, 0x90, 0x98] := by
  have hcodes : ∀ code : EventCode, carriesData (classifyDefault (statusOfCode code)) = true ↔
      statusOfCode code ∈ [(0x80 : Byte), 0x88, 0x90, 0x98] := by decide
  rw [classifyDefault_statusOfCode_codeOf, maskStatus_eq_statusOfCode, hcodes]

theorem encodePortWord_decodeCommand (c : Byte) :
    encodePortWord (decodeCommand c) = .command (if c.getLsbD 7 = true then c else 0) := by
  have hop : ∀ c : Byte, c.getLsbD 7 = true → (1 : BitVec 1) ++ c.extractLsb' 0 7 = c := by decide
  by_cases hc : c.getLsbD 7 = true
  · rw [decodeCommand, if_pos hc, if_pos hc, encodePortWord, hop c hc]
  · rw [decodeCommand, if_neg hc, if_neg hc]; rfl

/-- Settles O4: the two ports separately. -/
theorem encodeOfDecodeClearsIgnoredBits : Obligations.EncodeOfDecodeClearsIgnoredBits := by
  refine ⟨fun status d => ⟨_, encodePortWord_classifyDefault status d, fun hmem => ?_, fun hmem => ?_⟩,
    encodePortWord_decodeCommand⟩
  · rw [if_pos ((carriesData_classifyDefault status).mpr hmem)]
  · rw [if_neg (mt (carriesData_classifyDefault status).mp hmem)]

end Sys2Proof.Proofs

namespace Sys2Proof.Proofs

open Sys2Proof.Machine

/-! ## A waiting command (R94) -/

/-- Settles O43: with no event ready and no reset striking it is the host's turn. -/
theorem stepRunsTheDecodedCommand : Obligations.StepRunsTheDecodedCommand := by
  intro s c hc hev hreset
  have hready : readyEvent s = none :=
    (readyEvent_eq_none_iff s).mpr (hev.imp_right (eventsTaken_eq_false_iff s).mpr)
  have hturn : turn s = .host c := by simp [turn, hreset, hready, hc]
  rw [step, hturn]
  rfl

/-! ## Frames, expansions and the grammar of streams (R100 to R106) -/

theorem wireEvents_dataBytes (a : BusAddr) (bs : List Byte) :
    wireEvents a .ownWrite (bs.map .data ++ [.stop]) = bs.map .draW ++ [.sor] := by
  induction bs with
  | nil => rfl
  | cons b bs ih => simp [wireEvents, wireStep, ih]

theorem wireEvents_sentBytes (a : BusAddr) (more : Nat) :
    wireEvents a .read (List.replicate more .sentAck ++ [.sentNack, .stop]) = List.replicate more .dsa ++ [.dsn] := by
  induction more with
  | zero => rfl
  | succ more ih => simp [List.replicate_succ, wireEvents, wireStep, ih]

/-- The frame of a write raises its expansion (R100, R104). -/
theorem wireEvents_writeFrame (a : BusAddr) (bs : List Byte) : wireEvents a .none (writeFrame a bs) = writeN bs := by
  simp [writeFrame, writeN, wireEvents, wireStep, wireEvents_dataBytes]

/-- The frame of a read raises its expansion (R100, R104). -/
theorem wireEvents_readFrame (a : BusAddr) (more : Nat) : wireEvents a .none (readFrame a more) = readBytes more := by
  simp [readFrame, readBytes, wireEvents, wireStep, wireEvents_sentBytes]

theorem streamEnd_dataBytes (bs : List Byte) : streamEnd .ownWrite (bs.map .draW ++ [.sor]) = some .between := by
  induction bs with
  | nil => rfl
  | cons b bs ih => simpa [streamEnd, streamStep] using ih

theorem streamEnd_sentBytes (more : Nat) : streamEnd .read (List.replicate more .dsa ++ [.dsn]) = some .between := by
  induction more with
  | zero => rfl
  | succ more ih => simpa [List.replicate_succ, streamEnd, streamStep] using ih

theorem wellFormedStream_writeN (bs : List Byte) : wellFormedStream (writeN bs) = true := by
  simp [wellFormedStream, writeN, streamEnd, streamStep, streamEnd_dataBytes]

theorem wellFormedStream_readBytes (more : Nat) : wellFormedStream (readBytes more) = true := by
  simp [wellFormedStream, readBytes, streamEnd, streamStep, streamEnd_sentBytes]

/-- Settles O40: the write and the read frame for any number of bytes by induction; the register frames are short. -/
theorem framesRaiseTheExpansions : Obligations.FramesRaiseTheExpansions := by
  refine ⟨fun a bs => ⟨wireEvents_writeFrame a bs, wellFormedStream_writeN bs⟩,
    fun a more => ⟨wireEvents_readFrame a more, wellFormedStream_readBytes more⟩, fun a i => ⟨?_, ?_⟩,
    fun a i v ha => ⟨?_, rfl⟩⟩
  · simp [registerReadFrame, writeFrame, readFrame, wireEvents, wireStep, readReg, readReq, writeN, readByte, readBytes]
  · simp [registerReadRestartFrame, readFrame, wireEvents, wireStep, readReg, readReq, writeN, readByte, readBytes]
  · have hown : 0#7 ≠ a := Ne.symm ha
    simp [writeFrame, wireEvents, wireStep, gcWrite, hown]

/-- An event that ends a transaction leaves the dispatcher Idle (R26, R106). -/
theorem phase_of_streamStep_between {p : StreamPos} {i : Instr} {s t : State} (hp : streamStep p i = some .between)
    (h : exec i s = .next t) : t.phase = .idle := by
  obtain ⟨-, -, -, -, hphase⟩ := phaseAfterEachOperation
  have ht := hphase i s t h
  cases i with
  | berr | sor | dsn => exact ht
  | amw | gcm | draW d | draG d | amr | dsa => simp [streamStep] at hp
  | unh code | amwAl | gcmAl | drnW d | drnG d | amrAl | dsaLast | init a | shutdown => cases hp

/-- A stream that ends between transactions ends in Idle, wherever in the grammar it starts (R106, R295). -/
theorem execAll_phase {p : StreamPos} {is : List Instr} {s t : State} (hend : streamEnd p is = some .between)
    (hs : p = .between → s.phase = .idle) (h : execAll is s = .next t) : t.phase = .idle := by
  induction is generalizing p s with
  | nil =>
    cases h
    exact hs (Option.some.inj hend)
  | cons i is ih =>
    obtain ⟨u, hu, ht⟩ := andThen_eq_next.mp h
    cases hstep : streamStep p i with
    | none => simp [streamEnd, hstep] at hend
    | some q =>
      rw [streamEnd, hstep] at hend
      exact ih hend (fun hq => phase_of_streamStep_between (hq ▸ hstep) hu) ht

/-- Settles O41: the grammar starts between transactions, where PHASE is Idle. -/
theorem wellFormedStreamEndsIdle : Obligations.WellFormedStreamEndsIdle := by
  intro is s t hwf hs h
  exact execAll_phase (of_decide_eq_true hwf) (fun _ => hs) h

/-! ## Transactions (R104) -/

theorem execAll_cons {i : Instr} {is : List Instr} {s t : State} (h : exec i s = .next t) :
    execAll (i :: is) s = execAll is t := by
  rw [execAll, h, andThen_next]

theorem execAll_append {is js : List Instr} {s t : State} (h : execAll is s = .next t) :
    execAll (is ++ js) s = execAll js t := by
  induction is generalizing s with
  | nil => cases h; rfl
  | cons i is ih =>
    obtain ⟨u, hu, ht⟩ := andThen_eq_next.mp h
    rw [List.cons_append, execAll_cons hu, ih ht]

/-- The state after an address match for write and the bytes that follow it. -/
def received (bs : List Byte) (s : State) : State := bs.foldl (fun u b => dataReceivedAck b u) (addrMatchWrite s)

theorem execAll_dataBytes (bs : List Byte) (s : State) (js : List Instr) :
    execAll (bs.map .draW ++ js) s = execAll js (bs.foldl (fun u b => dataReceivedAck b u) s) := by
  induction bs generalizing s with
  | nil => rfl
  | cons b bs ih => exact ih (dataReceivedAck b s)

/-- A write transaction is SOR on what it has received (R104). -/
theorem execAll_writeN {bs : List Byte} {s t : State} (h : execSor (received bs s) = .next t) :
    execAll (writeN bs) s = .next t := by
  have hsor : execAll [.sor] (received bs s) = .next t := by rw [execAll_cons (i := .sor) h]; rfl
  exact (execAll_dataBytes bs (addrMatchWrite s) [.sor]).trans hsor

/-- SOR on a write request whose bound handler returns (R162). -/
theorem execSor_of_write {s w : State} {a : Byte} (hl : s.rxlen = 2) (hb : s.params.wrBound = true)
    (hx : hookExchange s.rxbuf.b0 s = .next (a, w)) :
    execSor s = .next (respond .ack (setPhase .idle (observe (.hook (.wr s.rxbuf.b0 s.rxbuf.b1)) w))) := by
  have hreq : request s = .write s.rxbuf.b0 s.rxbuf.b1 := by simp [request, hl, RxBuf.get]
  have hwrite : regWrite s.rxbuf.b0 s.rxbuf.b1 s = .next (observe (.hook (.wr s.rxbuf.b0 s.rxbuf.b1)) w) := by
    rw [regWrite, if_pos hb, hx, andThen_next]
  rw [execSor, hreq, dispatchRequest, hwrite, andThen_next]

/-- SOR on a read request whose bound handler returns (R161). -/
theorem execSor_of_read {s w : State} {v : Byte} (hl : s.rxlen = 1) (hb : s.params.rdBound = true)
    (hx : hookExchange s.rxbuf.b0 s = .next (v, w)) :
    execSor s = .next (respond .ack (setPhase .idle (setTxpend v (observe (.hook (.rd s.rxbuf.b0 v)) w)))) := by
  have hreq : request s = .read s.rxbuf.b0 := by simp [request, hl, RxBuf.get]
  have hread : regRead s.rxbuf.b0 s = .next (v, observe (.hook (.rd s.rxbuf.b0 v)) w) := by
    rw [regRead, if_pos hb, hx, andThen_next]
  rw [execSor, hreq, dispatchRequest, hread, andThen_next, andThen_next]

/-- Settles O36: SOR on two received bytes, with whatever the handler returns. -/
theorem writeTransactionCallsTheHookOnce : Obligations.WriteTransactionCallsTheHookOnce := by
  intro s i v hb hret
  obtain ⟨a, w, hx, -⟩ := hookExchange_returns i (s := received [i, v] s) hret
  refine ⟨_, execAll_writeN (execSor_of_write (s := received [i, v] s) rfl hb hx), ?_⟩
  rw [hookExchange_frame hx]
  exact ⟨rfl, rfl, rfl, rfl⟩

theorem hookExchange_of_returns {i v : Byte} {s : State} {rest : List HookReply} (h : s.replies = .returns v :: rest) :
    hookExchange i s = .next (v, { s with replies := rest }) := by
  rw [hookExchange, h]

/-- From `s` to `t` the master is sent `n` copies of `TXPEND`, the last of them still in the transmit register, and no hook
is called (R180, R186). -/
structure SendsCopies (n : Nat) (s t : State) : Prop where
  sent : sentBytes t.log = List.replicate n s.txpend ++ sentBytes s.log
  calls : hookCalls t.log = hookCalls s.log
  txpend : t.txpend = s.txpend
  txReg : t.txReg = s.txpend

theorem addrMatchRead_sendsCopies (s : State) : SendsCopies 1 s (addrMatchRead s) :=
  ⟨rfl, rfl, rfl, rfl⟩

theorem SendsCopies.dataSentAck {n : Nat} {s u : State} (h : SendsCopies n s u) :
    SendsCopies (n + 1) s (sendPending .txSubsequent u) where
  sent := by simp [sendPending, h.sent, h.txpend, List.replicate_succ]
  calls := h.calls
  txpend := h.txpend
  txReg := h.txpend

theorem SendsCopies.dataSentNack {n : Nat} {s u : State} (h : SendsCopies n s u) :
    SendsCopies n s (respond .ack (setPhase .idle u)) :=
  ⟨h.sent, h.calls, h.txpend, h.txReg⟩

/-- The rest of a read transaction: `more` bytes acknowledged, and the last one not (R104). -/
theorem execAll_dataSent {n more : Nat} {s u : State} (h : SendsCopies n s u) :
    ∃ t, execAll (List.replicate more .dsa ++ [.dsn]) u = .next t ∧ SendsCopies (more + n) s t ∧ t.phase = .idle := by
  induction more generalizing n u with
  | zero => exact ⟨_, rfl, by simpa using h.dataSentNack, rfl⟩
  | succ more ih =>
    obtain ⟨t, ht, hsends, hphase⟩ := ih h.dataSentAck
    exact ⟨t, ht, by rwa [Nat.succ_add_eq_add_succ], hphase⟩

/-- A read transaction sends copies of `TXPEND` (R104, R186). -/
theorem execAll_readBytes (more : Nat) (s : State) :
    ∃ t, execAll (readBytes more) s = .next t ∧ SendsCopies (more + 1) s t ∧ t.phase = .idle :=
  execAll_dataSent (addrMatchRead_sendsCopies s)

/-- Settles O38, by `execAll_readBytes`. -/
theorem readBytesSendsCopiesOfTxpend : Obligations.ReadBytesSendsCopiesOfTxpend := by
  intro s more
  obtain ⟨t, ht, hsends, hphase⟩ := execAll_readBytes more s
  exact ⟨t, ht, hsends.sent, hsends.calls, hsends.txpend, hphase⟩

/-- Settles O37: SOR on the received index stages the answer, and the read that follows sends it. -/
theorem readTransactionSendsTheHooksAnswer : Obligations.ReadTransactionSendsTheHooksAnswer := by
  intro s i v rest hb hr
  have hx := hookExchange_of_returns (i := i) (s := received [i] s) hr
  have hreq := execAll_writeN (execSor_of_read (s := received [i] s) rfl hb hx)
  obtain ⟨t, ht, hsends, hphase⟩ := execAll_readBytes 0 _
  exact ⟨t, (execAll_append hreq).trans ht, hsends.calls, hsends.sent, hsends.txReg, hphase⟩

end Sys2Proof.Proofs

namespace Sys2Proof.Proofs

open Sys2Proof.Machine

/-! ## The trace text (R103) -/

theorem hexValue_hexDigit : ∀ n < 16, hexValue (hexDigit n) = some n := by decide

theorem hexDigit_ne_blank_and_ne_semicolon : ∀ n < 16, hexDigit n ≠ ' ' ∧ hexDigit n ≠ ';' := by decide

/-- A byte's two digits are those of its high and its low half. -/
theorem hexHalves_lt (b : Byte) : b.toNat / 16 < 16 ∧ b.toNat % 16 < 16 := by
  have := b.isLt
  omega

/-- A byte's text, read back, is that byte (R103). -/
theorem parseByte_renderByte (b : Byte) (rest : List Char) : parseByte (renderByte b ++ rest) = some (b, rest) := by
  obtain ⟨hhigh, hlow⟩ := hexHalves_lt b
  have hb : BitVec.ofNat 8 (16 * (b.toNat / 16) + b.toNat % 16) = b := by
    rw [Nat.div_add_mod, BitVec.ofNat_toNat, BitVec.setWidth_eq]
  simp [renderByte, hexByte, parseByte, hexValue_hexDigit _ hhigh, hexValue_hexDigit _ hlow, hb]

theorem parseOneByte_renderByte (b : Byte) : parseOneByte (renderByte b) = some b := by
  have hread := parseByte_renderByte b []
  rw [List.append_nil] at hread
  rw [parseOneByte, hread]

theorem semicolon_not_mem_renderByte (b : Byte) : ';' ∉ renderByte b := by
  obtain ⟨hhigh, hlow⟩ := hexHalves_lt b
  obtain ⟨-, h1⟩ := hexDigit_ne_blank_and_ne_semicolon _ hhigh
  obtain ⟨-, h2⟩ := hexDigit_ne_blank_and_ne_semicolon _ hlow
  simp [renderByte, hexByte, h1.symm, h2.symm]

theorem getLast?_append_renderByte (cs : List Char) (b : Byte) : (cs ++ renderByte b).getLast? ≠ some ' ' := by
  obtain ⟨-, hlow⟩ := hexHalves_lt b
  obtain ⟨hblank, -⟩ := hexDigit_ne_blank_and_ne_semicolon _ hlow
  simpa [renderByte, hexByte] using hblank

/-- A text that holds no comment and ends in no blank is stripped of nothing (R103). -/
theorem stripLine_of_clean {cs : List Char} (hcomment : ';' ∉ cs) (hblank : cs.getLast? ≠ some ' ') :
    stripLine cs = cs := by
  have htake : cs.takeWhile (fun c => c ≠ ';') = cs := by
    rw [List.takeWhile_eq_self_iff]
    intro c hc
    exact decide_eq_true fun h => hcomment (h ▸ hc)
  have hdrop : cs.reverse.dropWhile (fun c => c = ' ') = cs.reverse := by
    rw [List.getLast?_eq_head?_reverse] at hblank
    cases h : cs.reverse with
    | nil => rfl
    | cons c rest =>
      rw [h] at hblank
      exact List.dropWhile_cons_of_neg (by simpa using hblank)
  rw [stripLine, htake, hdrop, List.reverse_reverse]

/-- A clean text that is an operation is a line of that operation (R103). -/
theorem parseLine_of_parseInstr {cs : List Char} {i : Instr} (hcomment : ';' ∉ cs) (hblank : cs.getLast? ≠ some ' ')
    (hi : parseInstr cs = some i) : parseLine cs = some (.op i) := by
  have hnil : cs ≠ [] := by rintro rfl; cases hi
  have hreset : cs ≠ "RESET".toList := by rintro rfl; cases hi
  simp only [parseLine, stripLine_of_clean hcomment hblank, if_neg hnil, if_neg hreset, hi, Option.map_some]

/-- A character that may stand in the name before an operand (R103). -/
def isNameChar (c : Char) : Bool := decide (c ≠ ' ' ∧ c ≠ '(')

/-- The text of an operation with an operand is no plain mnemonic, and its name ends at the separator (R103). -/
theorem parseInstr_split {name operand : List Char} {sep : Char} (hname : name.all isNameChar = true)
    (hsep : isNameChar sep = false) :
    plainOps.find? (fun i => i.mnemonic.toList = name ++ sep :: operand) = none ∧
    (name ++ sep :: operand).takeWhile (fun c => c ≠ ' ' ∧ c ≠ '(') = name := by
  have hplain : ∀ i ∈ plainOps, i.mnemonic.toList.all isNameChar = true := by decide
  constructor
  · rw [List.find?_eq_none]
    intro i hi heq
    have hmem : sep ∈ i.mnemonic.toList := by rw [of_decide_eq_true heq]; simp
    exact absurd (List.all_eq_true.mp (hplain i hi) sep hmem) (by simp [hsep])
  · change (name ++ sep :: operand).takeWhile isNameChar = name
    rw [List.takeWhile_append_of_pos (List.all_eq_true.mp hname), List.takeWhile_cons_of_neg (by simp [hsep]),
      List.append_nil]

/-- A name, a blank and a byte are the operation that `parseWithByte` gives them (R103). -/
theorem parseInstr_nameByte {name : List Char} {b : Byte} {i : Instr} (hname : name.all isNameChar = true)
    (hi : parseWithByte name b = some i) : parseInstr (name ++ ' ' :: renderByte b) = some i := by
  obtain ⟨hfind, htake⟩ := parseInstr_split (operand := renderByte b) hname (sep := ' ') rfl
  simp only [parseInstr, hfind, htake, List.drop_left, parseOneByte_renderByte, Option.bind_some, hi]

theorem parseLine_nameByte {name : List Char} {b : Byte} {i : Instr} (hname : name.all isNameChar = true)
    (hcomment : ';' ∉ name) (hi : parseWithByte name b = some i) :
    parseLine (name ++ [' '] ++ renderByte b) = some (.op i) := by
  refine parseLine_of_parseInstr ?_ (getLast?_append_renderByte _ b) ?_
  · simp [hcomment, semicolon_not_mem_renderByte]
  · rw [List.append_assoc]
    exact parseInstr_nameByte hname hi

/-- INIT takes a byte whose bit 7 is 0 (R94, R103). -/
theorem parseWithByte_init {b : Byte} (hb : b.getLsbD 7 = false) :
    parseWithByte "INIT".toList b = some (.init (b.extractLsb' 0 7)) := by
  have hinit : parseWithByte "INIT".toList b = if b.getLsbD 7 then none else some (.init (b.extractLsb' 0 7)) := rfl
  rw [hinit, hb]; rfl

/-- An address widened to a byte has bit 7 at 0 and the address below it (R94). -/
theorem setWidth_addr (a : BusAddr) : (a.setWidth 8).getLsbD 7 = false ∧ (a.setWidth 8).extractLsb' 0 7 = a := by
  constructor
  · rw [BitVec.getLsbD_setWidth, BitVec.getLsbD_of_ge a 7 le_rfl, Bool.and_false]
  · rw [← BitVec.setWidth_eq_extractLsb' (by decide), BitVec.setWidth_setWidth_of_le a (by decide), BitVec.setWidth_eq]

theorem parseWithByte_addr (a : BusAddr) : parseWithByte "INIT".toList (a.setWidth 8) = some (.init a) := by
  obtain ⟨hop, haddr⟩ := setWidth_addr a
  rw [parseWithByte_init hop, haddr]

/-- UNH's text names a status code that the default table leaves to Unhandled (R92, R103). -/
theorem parseInstr_unh {code : EventCode} (hwf : unhandledCode code = true) :
    parseInstr ("UNH".toList ++ '(' :: (renderByte (statusOfCode code) ++ [')'])) = some (.unh code) := by
  obtain ⟨hfind, htake⟩ := parseInstr_split (name := "UNH".toList) (sep := '(')
    (operand := renderByte (statusOfCode code) ++ [')']) rfl rfl
  simp only [parseInstr, hfind, htake, List.drop_left, parseByte_renderByte, codeOf_statusOfCode, hwf, and_self, if_true]

theorem parseLine_unh {code : EventCode} (hwf : unhandledCode code = true) :
    parseLine ("UNH".toList ++ '(' :: (renderByte (statusOfCode code) ++ [')'])) = some (.op (.unh code)) :=
  parseLine_of_parseInstr (by simp [semicolon_not_mem_renderByte]) (by simp [List.getLast?_cons]) (parseInstr_unh hwf)

/-- Settles O8: the operations without operand by evaluation, those with a byte by name and byte. -/
theorem traceTextReadsBack : Obligations.TraceTextReadsBack := by
  intro i hwf
  cases i with
  | berr | amw | amwAl | gcm | gcmAl | sor | amr | amrAl | dsa | dsn | dsaLast | shutdown => rfl
  | draW d => exact parseLine_nameByte (name := "DRA_W".toList) rfl (by decide) rfl
  | drnW d => exact parseLine_nameByte (name := "DRN_W".toList) rfl (by decide) rfl
  | draG d => exact parseLine_nameByte (name := "DRA_G".toList) rfl (by decide) rfl
  | drnG d => exact parseLine_nameByte (name := "DRN_G".toList) rfl (by decide) rfl
  | init a => exact parseLine_nameByte (name := "INIT".toList) rfl (by decide) (parseWithByte_addr a)
  | unh code => exact parseLine_unh hwf

end Sys2Proof.Proofs

namespace Sys2Proof.Proofs

open Sys2Proof.Machine

/-! ## At most one response and one hook call a step (R120, R165) -/

/-- A log grown from another by at most one response and at most one hook call. -/
def GrowsByOneAtMost (old new : List Obs) : Prop :=
  (responses new).length ≤ (responses old).length + 1 ∧ (hookCalls new).length ≤ (hookCalls old).length + 1

/-- An event's answer: one response, on top of the hook call where one is made. -/
theorem growsByOneAtMost_response (r : Response) (call : Option HookCall) (l : List Obs) :
    GrowsByOneAtMost l (.response r :: (call.toList.map Obs.hook ++ l)) := by
  cases call with
  | none => exact ⟨Nat.le_refl _, Nat.le_succ _⟩
  | some c => exact ⟨Nat.le_refl _, Nat.le_refl _⟩

theorem growsByOneAtMost_control (c : ControlLevels) (l : List Obs) : GrowsByOneAtMost l (.control c :: l) :=
  ⟨Nat.le_succ _, Nat.le_succ _⟩

theorem exec_growsByOneAtMost {i : Instr} {s t : State} (h : exec i s = .next t) : GrowsByOneAtMost s.log t.log := by
  obtain ⟨r, call, hlog, -⟩ | ⟨l, hlog, -⟩ := exec_log h
  · exact hlog ▸ growsByOneAtMost_response r call s.log
  · exact hlog ▸ growsByOneAtMost_control l s.log

/-- The outside world's turn adds nothing to the log, or begins a new one (R290). -/
theorem outsideMove_log (s : State) : (outsideMove s).log = s.log ∨ (outsideMove s).log = [] := by
  obtain hid | ⟨m, pre, post, -, hmove, -⟩ := outsideMove_cases s
  · exact .inl (by rw [hid])
  · rw [hmove]
    exact applyMove_log m { s with moves := pre ++ post }

theorem outsideMove_growsByOneAtMost (s : State) : GrowsByOneAtMost s.log (outsideMove s).log := by
  obtain hlog | hlog := outsideMove_log s
  · rw [hlog]; exact ⟨Nat.le_succ _, Nat.le_succ _⟩
  · rw [hlog]; exact ⟨Nat.zero_le _, Nat.zero_le _⟩

/-- Settles O55: a step is one operation, on a state with the same log, or a move of the outside world. -/
theorem stepAnswersAndCallsAtMostOnce : Obligations.StepAnswersAndCallsAtMostOnce := by
  intro s t h
  obtain ⟨-, ⟨w, -, -, -, hrun⟩ | ⟨c, -, -, hrun⟩ | ⟨w, c, -, -, -, hrun | hrun⟩⟩ | ⟨-, rfl⟩ := step_cases h
  · exact exec_growsByOneAtMost hrun
  · exact exec_growsByOneAtMost (s := takeCommand s) hrun
  · exact exec_growsByOneAtMost (s := takeCommand (nextDraw s)) hrun
  · exact exec_growsByOneAtMost (s := nextDraw s) hrun
  · exact outsideMove_growsByOneAtMost s

/-! ## A pending event, taken or not (R120) -/

/-- Settles O42: with the event ready, no command waiting and no reset striking it is the engine's turn. -/
theorem stepRunsTheDecodedEvent : Obligations.StepRunsTheDecodedEvent := by
  intro s w hw hen hie hmask hc hreset
  have hready : readyEvent s = some w :=
    (readyEvent_eq_some_iff s w).mpr ⟨hw, (eventsTaken_iff s).mpr ⟨hen, hie, hmask⟩⟩
  have hturn : turn s = .engine w := by simp [turn, hreset, hready, hc]
  rw [step, hturn]
  rfl

/-- With nothing ready to be taken the outside world moves (R290, log 1). -/
theorem step_outside {s : State} (hready : readyEvent s = none) (hc : s.cmd = none) : step s = .next (outsideMove s) := by
  have hturn : turn s = .outside := by simp [turn, hready, hc]
  rw [step, hturn]

theorem outsideMove_of_no_moves {s : State} (h : s.moves = []) : outsideMove s = s := by
  rw [outsideMove, h]; rfl

/-- With no event pending the outside world's turn is the first of the moves to come. -/
theorem outsideMove_of_no_event {s : State} {m : EnvMove} {rest : List EnvMove} (he : s.event = none)
    (hm : s.moves = m :: rest) : outsideMove s = applyMove m { s with moves := rest } := by
  rw [outsideMove, he, hm]; rfl

/-- An event raised while the engine is disabled is lost (R267 E1, log 11). -/
theorem raiseEvent_of_disabled (w : EventWord) {s : State} (h : s.en = false) : raiseEvent w s = s := by
  have hevent : (if s.en then some w else s.event) = s.event := by simp [h]
  rw [raiseEvent, hevent]

/-- Settles O45: it is the outside world's turn, which has no move, or raises the event that is lost. -/
theorem disabledEngineTakesNoEvent : Obligations.DisabledEngineTakesNoEvent := by
  refine ⟨fun s w _ hoff hc hmoves => ?_, fun s w rest he hc hen hmoves => ?_⟩
  · have htaken : eventsTaken s = false := (eventsTaken_eq_false_iff s).mpr (hoff.imp_right .inl)
    rw [step_outside ((readyEvent_eq_none_iff s).mpr (.inr htaken)) hc, outsideMove_of_no_moves hmoves]
  · have hlost : applyMove (.raise w) { s with moves := rest } = { s with moves := rest } :=
      raiseEvent_of_disabled w hen
    rw [step_outside ((readyEvent_eq_none_iff s).mpr (.inl he)) hc, outsideMove_of_no_event he hmoves, hlost]

/-! ## The host's fetch (log 15, log 16) -/

/-- A word on the event port is never read as a host command (R90). -/
theorem decodeEvent_isCommand (m : StatusMap) (w : EventWord) : (decodeEvent m w).isCommand = false := by
  rw [decodeEvent]
  cases classify m w.status <;> rfl

/-- A word on the command port is always read as a host command (R90, R94). -/
theorem decodeCommand_isCommand (c : Byte) : (decodeCommand c).isCommand = true := by
  unfold decodeCommand
  split <;> rfl

/-- A table word that decodes is a word on one of the ports, and `withFetchWord` places that word. -/
theorem withFetchWord_of_decodeTableWord {nbits w : Nat} {i : Instr} (h : decodeTableWord nbits w = some i) (s : State) :
    ∃ p, s.withFetchWord nbits w = loadPort p s ∧ decodePortWord [] p = i := by
  unfold decodeTableWord at h
  unfold State.withFetchWord
  by_cases hbits : nbits ≤ 24
  · rw [if_pos hbits] at h ⊢
    cases hport : portWordOfBytes (tableBytes nbits w) with
    | ok p =>
      rw [decode, hport] at h
      exact ⟨p, rfl, Option.some.inj h⟩
    | error e =>
      rw [decode, hport] at h
      cases h
  · rw [if_neg hbits] at h
    cases h

/-- An event word that is placed is what the next step runs. -/
theorem step_loadPort_event (e : EventWord) (s : State) :
    step (loadPort (.event e) s) = exec (decodeEvent s.params.statusMap e) (loadPort (.event e) s) :=
  stepRunsTheDecodedEvent (loadPort (.event e) s) e rfl rfl rfl rfl rfl (settleFirst_not_strikes s)

/-- A command word that is placed is what the next step runs, off its port. -/
theorem step_loadPort_command (c : Byte) (s : State) :
    step (loadPort (.command c) s) = exec (decodeCommand c) { settleFirst s with cmd := none, event := none } :=
  stepRunsTheDecodedCommand (loadPort (.command c) s) c rfl (.inl rfl) (settleFirst_not_strikes s)

/-- Settles O44: the word is placed on its port, and by its port the instruction is an event operation or a host command. -/
theorem fetchedWordIsRun : Obligations.FetchedWordIsRun := by
  intro s nbits w i hmap hdecode
  obtain ⟨p, hfetch, rfl⟩ := withFetchWord_of_decodeTableWord hdecode s
  rw [hfetch]
  cases p with
  | event e =>
    refine ⟨fun _ => ?_, fun hcommand => ?_⟩
    · rw [step_loadPort_event, hmap]; rfl
    · exact absurd ((decodeEvent_isCommand [] e).symm.trans hcommand) Bool.false_ne_true
  | command c =>
    refine ⟨fun hevent => ?_, fun _ => step_loadPort_command c s⟩
    exact absurd ((decodeCommand_isCommand c).symm.trans hevent) (Ne.symm Bool.false_ne_true)

end Sys2Proof.Proofs

namespace Sys2Proof.Proofs

open Sys2Proof.Machine

/-! ## Reception: address match for write, data received (R140 to R148) -/

/-- An event word whose masked status code the default table lists is that event's instruction (R91, R92). -/
theorem decodeEvent_of_masked {status v : Byte} {e : EventName} (d : Byte) (hv : status &&& 0xF8 = v)
    (he : defaultStatusMap.event? v = some e) : decodeEvent [] ⟨status, d⟩ = e.toInstr ⟨status, d⟩ := by
  have hclass : classifyDefault status = e := by rw [classifyDefault, maskStatus, hv, he, Option.getD_some]
  exact decodePortWord_event hclass d

/-- An answer that rearms clears the event and is recorded; it changes nothing else (R254, R261). -/
theorem respond_of_rearm {r : Response} (hr : r.rearm = true) (s : State) :
    respond r s = { s with event := none, log := .response r :: s.log } := by
  rw [respond, if_pos hr]; rfl

/-- All that appending a byte, setting PHASE and answering does: the byte goes to the cell that the length names, and from
length 4 on it is dropped (R140). -/
theorem append_answer {r : Response} (hr : r.rearm = true) (p : Phase) (d : Byte) (s : State) :
    (s.rxlen = 0 → respond r (setPhase p (append d s)) = { s with
      rxbuf := { s.rxbuf with b0 := d }, rxlen := 1, phase := p, event := none, log := .response r :: s.log }) ∧
    (s.rxlen = 1 → respond r (setPhase p (append d s)) = { s with
      rxbuf := { s.rxbuf with b1 := d }, rxlen := 2, phase := p, event := none, log := .response r :: s.log }) ∧
    (s.rxlen = 2 → respond r (setPhase p (append d s)) = { s with
      rxbuf := { s.rxbuf with b2 := d }, rxlen := 3, phase := p, event := none, log := .response r :: s.log }) ∧
    (s.rxlen = 3 → respond r (setPhase p (append d s)) = { s with
      rxbuf := { s.rxbuf with b3 := d }, rxlen := 4, phase := p, event := none, log := .response r :: s.log }) ∧
    (4 ≤ s.rxlen → respond r (setPhase p (append d s)) = { s with
      phase := p, event := none, log := .response r :: s.log }) := by
  have hroom : ∀ n : RxLen, n.toNat < 4 → s.rxlen = n → respond r (setPhase p (append d s)) = { s with
      rxbuf := s.rxbuf.put n d, rxlen := n + 1, phase := p, event := none, log := .response r :: s.log } := by
    rintro _ hn rfl
    rw [append_of_room hn, respond_of_rearm hr]; rfl
  refine ⟨hroom 0 (by decide), hroom 1 (by decide), hroom 2 (by decide), hroom 3 (by decide), fun hfull => ?_⟩
  rw [append_of_full hfull, respond_of_rearm hr]; rfl

/-- Settles O9: the four operations are one update, and each is read at its own code. -/
theorem addressMatchWriteClearsLength : Obligations.AddressMatchWriteClearsLength := by
  refine ⟨fun s i hi => ?_, fun _ d h => decodeEvent_of_masked d h rfl, fun _ d h => decodeEvent_of_masked d h rfl,
    fun _ d h => decodeEvent_of_masked d h rfl, fun _ d h => decodeEvent_of_masked d h rfl⟩
  have hexec : exec i s = .next (addrMatchWrite s) := by
    simp only [List.mem_cons, List.not_mem_nil, or_false] at hi
    obtain rfl | rfl | rfl | rfl := hi <;> rfl
  rw [hexec, addrMatchWrite, respond_of_rearm rfl]
  rfl

/-- Settles O10: both events append, go Receiving and answer ACK. -/
theorem dataReceivedAckAppends : Obligations.DataReceivedAckAppends := by
  refine ⟨fun s d i hi => ?_, fun _ d h => decodeEvent_of_masked d h rfl, fun _ d h => decodeEvent_of_masked d h rfl⟩
  have hexec : exec i s = .next (respond .ack (setPhase .receiving (append d s))) := by
    simp only [List.mem_cons, List.not_mem_nil, or_false] at hi
    obtain rfl | rfl := hi <;> rfl
  simp only [hexec, Host.Outcome.next.injEq]
  exact append_answer (r := .ack) rfl .receiving d s

/-- Settles O11: both events append, go Idle and answer ACK_STOP. -/
theorem dataReceivedNackAppendsAndResetsTheBus : Obligations.DataReceivedNackAppendsAndResetsTheBus := by
  refine ⟨fun s d i hi => ?_, fun _ d h => decodeEvent_of_masked d h rfl, fun _ d h => decodeEvent_of_masked d h rfl⟩
  have hexec : exec i s = .next (respond .ackStop (setPhase .idle (append d s))) := by
    simp only [List.mem_cons, List.not_mem_nil, or_false] at hi
    obtain rfl | rfl := hi <;> rfl
  simp only [hexec, Host.Outcome.next.injEq]
  exact append_answer (r := .ackStop) rfl .idle d s

/-! ## A general-call write (R143, R146, R308) -/

/-- A general-call match is taken as an addressed one (R143). -/
theorem exec_gcm : exec .gcm = exec .amw := rfl

/-- A byte of a general call is taken as one of an addressed write (R146). -/
theorem exec_draG (d : Byte) : exec (.draG d) = exec (.draW d) := rfl

/-- Settles O39: event by event the two transactions are the same operations. -/
theorem generalCallWriteIsAnAddressedWrite : Obligations.GeneralCallWriteIsAnAddressedWrite := by
  intro s i v
  simp only [gcWrite, writeReg, writeN, List.map_cons, List.map_nil, List.cons_append, List.nil_append, execAll, exec_gcm,
    exec_draG]

end Sys2Proof.Proofs

namespace Sys2Proof.Proofs

open Sys2Proof.Machine

/-! ## SOR by request (R160 to R163) -/

/-- SOR on a read request with the read hook unbound (R161, R201). -/
theorem execSor_of_read_unbound {s : State} (hl : s.rxlen = 1) (hb : s.params.rdBound = false) :
    execSor s = .next (respond .ack (setPhase .idle (setTxpend Config.unboundRead s))) := by
  have hreq : request s = .read s.rxbuf.b0 := by simp [request, hl, RxBuf.get]
  have hread : regRead s.rxbuf.b0 s = .next (Config.unboundRead, s) := if_neg (by simp [hb])
  rw [execSor, hreq, dispatchRequest, hread, andThen_next, andThen_next]

/-- SOR on a write request with the write hook unbound: the pair is discarded (R162, R202). -/
theorem execSor_of_write_unbound {s : State} (hl : s.rxlen = 2) (hb : s.params.wrBound = false) :
    execSor s = .next (respond .ack (setPhase .idle s)) := by
  have hreq : request s = .write s.rxbuf.b0 s.rxbuf.b1 := by simp [request, hl, RxBuf.get]
  have hwrite : regWrite s.rxbuf.b0 s.rxbuf.b1 s = .next s := if_neg (by simp [hb])
  rw [execSor, hreq, dispatchRequest, hwrite, andThen_next]

/-- SOR on any other number of bytes (R163). -/
theorem execSor_of_malformed {s : State} (h1 : s.rxlen ≠ 1) (h2 : s.rxlen ≠ 2) :
    execSor s = .next (respond .ack (setPhase .idle s)) := by
  have hreq : request s = .malformed := by rw [request, if_neg h1, if_neg h2]
  rw [execSor, hreq, dispatchRequest, andThen_next]

/-- Where no answer is scripted the handler returns a free one (R207, log 7). -/
theorem hookExchange_of_unscripted {i : Byte} {s : State} (h : s.replies = []) :
    hookExchange i s = .next (Config.freeHookAnswer s.draws i, nextDraw s) := by
  rw [hookExchange, h]

/-- Settles O12, by SOR on a read request, bound and unbound. -/
theorem readRequestStagesTheAnswer : Obligations.ReadRequestStagesTheAnswer :=
  ⟨fun _ _ _ hl hb hr => execSor_of_read hl hb (hookExchange_of_returns hr),
    fun _ hl hb => execSor_of_read_unbound hl hb⟩

/-- Settles O13: the byte staged is the free answer. -/
theorem readRequestStagesAFreeAnswer : Obligations.ReadRequestStagesAFreeAnswer :=
  fun _ hl hb hr => ⟨_, execSor_of_read hl hb (hookExchange_of_unscripted hr)⟩

/-- Settles O14, by SOR on a write request, bound and unbound. -/
theorem writeRequestCallsTheWriteHook : Obligations.WriteRequestCallsTheWriteHook :=
  ⟨fun _ _ _ hl hb hr => execSor_of_write hl hb (hookExchange_of_returns hr),
    fun _ hl hb => execSor_of_write_unbound hl hb⟩

/-- SOR completes when the handlers keep their contract: what it calls, if anything, returns (R205). -/
theorem execSor_completes {s : State} (h : repliesReturn s.replies = true) : ∃ t, execSor s = .next t := by
  obtain ⟨v, w, hx, -⟩ := hookExchange_returns s.rxbuf.b0 h
  obtain ⟨hl, -⟩ | ⟨hl, -⟩ | ⟨h1, h2, -⟩ := request_cases s
  · cases hb : s.params.rdBound with
    | true => exact ⟨_, execSor_of_read hl hb hx⟩
    | false => exact ⟨_, execSor_of_read_unbound hl hb⟩
  · cases hb : s.params.wrBound with
    | true => exact ⟨_, execSor_of_write hl hb hx⟩
    | false => exact ⟨_, execSor_of_write_unbound hl hb⟩
  · exact ⟨_, execSor_of_malformed h1 h2⟩

/-- Settles O16: SOR completes, and what it leaves alone is its frame. -/
theorem sorCompletesWhenHandlersReturn : Obligations.SorCompletesWhenHandlersReturn := by
  refine ⟨fun s hs => ?_, fun _ d h => decodeEvent_of_masked d h rfl⟩
  obtain ⟨t, ht⟩ := execSor_completes hs
  refine ⟨t, ht, ?_⟩
  rw [execSor_frame ht]
  exact ⟨rfl, rfl, rfl, rfl⟩

/-! ## A whole transaction of a malformed length (R163) -/

/-- From `s` to `t` the block is addressed for writing and `n` bytes arrive: all is acknowledged, nothing is called, and the
length saturates at 4 (R140, R141, R145). -/
structure Collects (n : Nat) (s t : State) : Prop where
  rxlen : t.rxlen.toNat = min 4 n
  txpend : t.txpend = s.txpend
  calls : hookCalls t.log = hookCalls s.log
  answers : responses t.log = List.replicate (n + 1) .ack ++ responses s.log

theorem addrMatchWrite_collects (s : State) : Collects 0 s (addrMatchWrite s) :=
  ⟨rfl, rfl, rfl, rfl⟩

theorem Collects.dataByte {n : Nat} {s u : State} (h : Collects n s u) (b : Byte) :
    Collects (n + 1) s (dataReceivedAck b u) where
  rxlen := by
    have hn := h.rxlen
    simp only [dataReceivedAck, respond_rxlen, setPhase_rxlen, append_rxlen_toNat]
    split <;> omega
  txpend := by simp [dataReceivedAck, h.txpend]
  calls := by simp [dataReceivedAck, hookCalls, h.calls]
  answers := by simp [dataReceivedAck, responses, h.answers, List.replicate_succ]

theorem Collects.dataBytes {n : Nat} {s u : State} (h : Collects n s u) (bs : List Byte) :
    Collects (n + bs.length) s (bs.foldl (fun u b => dataReceivedAck b u) u) := by
  induction bs generalizing n u with
  | nil => exact h
  | cons b bs ih =>
    rw [List.length_cons, ← Nat.succ_add_eq_add_succ]
    exact ih (h.dataByte b)

theorem received_collects (bs : List Byte) (s : State) : Collects bs.length s (received bs s) := by
  simpa [received] using (addrMatchWrite_collects s).dataBytes bs

/-- Settles O15: the length that SOR reads is 1 or 2 only after 1 or 2 bytes. -/
theorem malformedTransactionIsSilent : Obligations.MalformedTransactionIsSilent := by
  refine ⟨fun s hl => ?_, fun s bs hlen1 hlen2 => ?_⟩
  · have h1 : s.rxlen ≠ 1 := by obtain h | h | h := hl <;> simp [h]
    have h2 : s.rxlen ≠ 2 := by obtain h | h | h := hl <;> simp [h]
    exact execSor_of_malformed h1 h2
  · obtain ⟨hrxlen, htxpend, hcalls, hanswers⟩ := received_collects bs s
    have hne : ∀ n : RxLen, n.toNat < 4 → bs.length ≠ n.toNat → (received bs s).rxlen ≠ n := by
      rintro _ hn hlen rfl
      omega
    have hsor := execSor_of_malformed (hne 1 (by decide) hlen1) (hne 2 (by decide) hlen2)
    exact ⟨_, execAll_writeN hsor, hcalls, htxpend, hrxlen, rfl, congrArg (Response.ack :: ·) hanswers⟩

/-! ## Hook calls are the dispatched requests (R164, R165) -/

/-- The hook call of a SOR: the read request's and the write request's where the hook is bound, and otherwise none. -/
theorem execSor_calls {s t : State} (h : execSor s = .next t) :
    (s.rxlen = 1 ∧ s.params.rdBound = true ∧ hookCalls t.log = .rd s.rxbuf.b0 t.txpend :: hookCalls s.log) ∨
    (s.rxlen = 2 ∧ s.params.wrBound = true ∧ hookCalls t.log = .wr s.rxbuf.b0 s.rxbuf.b1 :: hookCalls s.log) ∨
    (¬ (s.rxlen = 1 ∧ s.params.rdBound = true) ∧ ¬ (s.rxlen = 2 ∧ s.params.wrBound = true) ∧
      hookCalls t.log = hookCalls s.log) := by
  obtain ⟨u, rfl, hu⟩ := execSor_next h
  rcases hu with ⟨hl, hb, v, w, hx, rfl⟩ | ⟨hl, hb, rfl⟩ | ⟨hl, hb, v, w, hx, rfl⟩ | ⟨hl, hb, rfl⟩ | ⟨h1, h2, rfl⟩
  · rw [hookExchange_frame hx]; exact .inl ⟨hl, hb, rfl⟩
  · exact .inr (.inr ⟨by simp [hb], by simp [hl], rfl⟩)
  · rw [hookExchange_frame hx]; exact .inr (.inl ⟨hl, hb, rfl⟩)
  · exact .inr (.inr ⟨by simp [hl], by simp [hb], rfl⟩)
  · exact .inr (.inr ⟨fun ⟨hl, _⟩ => h1 hl, fun ⟨hl, _⟩ => h2 hl, rfl⟩)

theorem execSor_calls_of_read {s t : State} (h : execSor s = .next t) (hl : s.rxlen = 1) (hb : s.params.rdBound = true) :
    hookCalls t.log = .rd s.rxbuf.b0 t.txpend :: hookCalls s.log := by
  obtain ⟨-, -, hcalls⟩ | ⟨hl2, -⟩ | ⟨hread, -⟩ := execSor_calls h
  · exact hcalls
  · simp [hl] at hl2
  · exact absurd ⟨hl, hb⟩ hread

theorem execSor_calls_of_write {s t : State} (h : execSor s = .next t) (hl : s.rxlen = 2) (hb : s.params.wrBound = true) :
    hookCalls t.log = .wr s.rxbuf.b0 s.rxbuf.b1 :: hookCalls s.log := by
  obtain ⟨hl1, -⟩ | ⟨-, -, hcalls⟩ | ⟨-, hwrite, -⟩ := execSor_calls h
  · simp [hl] at hl1
  · exact hcalls
  · exact absurd ⟨hl, hb⟩ hwrite

/-- What the next SOR dispatches on, a SOR keeps (R164). -/
theorem execSor_keeps_request {s t : State} (h : execSor s = .next t) :
    t.rxbuf = s.rxbuf ∧ t.rxlen = s.rxlen ∧ t.params = s.params := by
  rw [execSor_frame h]
  exact ⟨rfl, rfl, rfl⟩

theorem execAll_sor_sor {s t : State} (h : execAll [.sor, .sor] s = .next t) :
    ∃ u, execSor s = .next u ∧ execSor u = .next t := by
  obtain ⟨u, hu, hrest⟩ := andThen_eq_next.mp h
  obtain ⟨v, hv, hnil⟩ := andThen_eq_next.mp hrest
  cases hnil
  exact ⟨u, hu, hv⟩

/-- Settles O35: the second SOR finds the buffer, the length and the straps of the first. -/
theorem sorTwiceDispatchesTwice : Obligations.SorTwiceDispatchesTwice := by
  refine ⟨fun s t h => ?_, fun s t h hl hb => ?_, fun s t h hl hb => ?_⟩
  · obtain ⟨hbuf, hlen, -⟩ := execSor_keeps_request h
    exact ⟨hbuf, hlen⟩
  · obtain ⟨u, hu, ht⟩ := execAll_sor_sor h
    obtain ⟨hbuf, hlen, hparams⟩ := execSor_keeps_request hu
    refine ⟨u.txpend, t.txpend, ?_, rfl⟩
    rw [execSor_calls_of_read ht (hlen.trans hl) (hparams ▸ hb), execSor_calls_of_read hu hl hb, hbuf]
  · obtain ⟨u, hu, ht⟩ := execAll_sor_sor h
    obtain ⟨hbuf, hlen, hparams⟩ := execSor_keeps_request hu
    rw [execSor_calls_of_write ht (hlen.trans hl) (hparams ▸ hb), execSor_calls_of_write hu hl hb, hbuf]

/-- A SOR that calls the read hook (R161). -/
def dispatchesRead (i : Instr) (s : State) : Bool := decide (i = .sor ∧ s.rxlen = 1 ∧ s.params.rdBound = true)

/-- A SOR that calls the write hook (R162). -/
def dispatchesWrite (i : Instr) (s : State) : Bool := decide (i = .sor ∧ s.rxlen = 2 ∧ s.params.wrBound = true)

/-- No operation but SOR calls a hook (R130). -/
theorem exec_calls_of_ne_sor {i : Instr} {s t : State} (hi : i ≠ .sor) (h : exec i s = .next t) :
    hookCalls t.log = hookCalls s.log := by
  cases i with
  | sor => exact absurd rfl hi
  | draW d | draG d => cases h; simp [dataReceivedAck, hookCalls]
  | drnW d | drnG d => cases h; simp [dataReceivedNack, hookCalls]
  | init a => obtain ⟨-, rfl⟩ := execInit_next h; rfl
  | amw | amwAl | gcm | gcmAl | berr | unh code | dsaLast | amr | amrAl | dsa | dsn | shutdown => cases h; rfl

/-- The hook call of an operation, if it makes one (R165). -/
theorem exec_calls {i : Instr} {s t : State} (h : exec i s = .next t) :
    (dispatchesRead i s = true ∧ dispatchesWrite i s = false ∧
      hookCalls t.log = .rd s.rxbuf.b0 t.txpend :: hookCalls s.log) ∨
    (dispatchesRead i s = false ∧ dispatchesWrite i s = true ∧
      hookCalls t.log = .wr s.rxbuf.b0 s.rxbuf.b1 :: hookCalls s.log) ∨
    (dispatchesRead i s = false ∧ dispatchesWrite i s = false ∧ hookCalls t.log = hookCalls s.log) := by
  by_cases hi : i = .sor
  · subst hi
    obtain ⟨hl, hb, hcalls⟩ | ⟨hl, hb, hcalls⟩ | ⟨hread, hwrite, hcalls⟩ := execSor_calls h
    · exact .inl ⟨by simp [dispatchesRead, hl, hb], by simp [dispatchesWrite, hl], hcalls⟩
    · exact .inr (.inl ⟨by simp [dispatchesRead, hl], by simp [dispatchesWrite, hl, hb], hcalls⟩)
    · exact .inr (.inr ⟨by simpa [dispatchesRead] using hread, by simpa [dispatchesWrite] using hwrite, hcalls⟩)
  · exact .inr (.inr ⟨by simp [dispatchesRead, hi], by simp [dispatchesWrite, hi], exec_calls_of_ne_sor hi h⟩)

/-- How many write calls a log shows (R295 b). -/
def writeCount (l : List Obs) : Nat := ((hookCalls l).filter fun c => !c.isRead).length

theorem exec_readCount {i : Instr} {s t : State} (h : exec i s = .next t) :
    readCount t.log = readCount s.log + (dispatchesRead i s).toNat := by
  obtain ⟨hread, -, hcalls⟩ | ⟨hread, -, hcalls⟩ | ⟨hread, -, hcalls⟩ := exec_calls h <;>
    simp [readCount, hread, hcalls, HookCall.isRead, List.filter_cons]

theorem exec_writeCount {i : Instr} {s t : State} (h : exec i s = .next t) :
    writeCount t.log = writeCount s.log + (dispatchesWrite i s).toNat := by
  obtain ⟨-, hwrite, hcalls⟩ | ⟨-, hwrite, hcalls⟩ | ⟨-, hwrite, hcalls⟩ := exec_calls h <;>
    simp [writeCount, hwrite, hcalls, HookCall.isRead]

/-- A count that every operation raises by one or not at all, as a condition says, is raised along a stream by the number of
operations that meet the condition. -/
theorem execAll_countWhen {c : Instr → State → Bool} {count : State → Nat}
    (hstep : ∀ {i : Instr} {s t : State}, exec i s = .next t → count t = count s + (c i s).toNat)
    {is : List Instr} {s t : State} (h : execAll is s = .next t) : count t = count s + countWhen c is s := by
  induction is generalizing s with
  | nil => cases h; rfl
  | cons i is ih =>
    obtain ⟨u, hu, ht⟩ := andThen_eq_next.mp h
    rw [ih ht, hstep hu, countWhen, hu, Nat.add_assoc]

/-- Settles O30: every operation raises the two counts as `exec_readCount` and `exec_writeCount` say. -/
theorem hookCallsAreTheDispatchedRequests : Obligations.HookCallsAreTheDispatchedRequests := fun _ _ _ h =>
  ⟨execAll_countWhen (count := fun u => readCount u.log) exec_readCount h,
    execAll_countWhen (count := fun u => writeCount u.log) exec_writeCount h⟩

end Sys2Proof.Proofs

namespace Sys2Proof.Proofs

open Sys2Proof.Machine

/-! ## Transmission and recovery (R180 to R185, R230 to R232) -/

/-- All that setting PHASE and an answer that rearms do (R26, R261). -/
theorem answer_eq {r : Response} (hr : r.rearm = true) (p : Phase) (s : State) :
    respond r (setPhase p s) = { s with phase := p, event := none, log := .response r :: s.log } := by
  rw [respond_of_rearm hr]; rfl

/-- All that staging and sending `TXPEND` does (R180). -/
theorem sendPending_eq (p : Phase) (s : State) :
    sendPending p s = { s with
      txReg := s.txpend, phase := p, event := none
      log := .response (Response.ack.withTx s.txpend) :: s.log } := by
  rw [sendPending, answer_eq rfl]; rfl

/-- All that the recovery action does; the cause is not recorded (R230). -/
theorem busReset_eq (cause : Cause) (s : State) :
    busReset cause s = { s with phase := .idle, event := none, log := .response .ackStop :: s.log } :=
  answer_eq rfl .idle s

/-- Settles O18: the two operations are one update, and each is read at its own code. -/
theorem addressMatchReadSendsTxpend : Obligations.AddressMatchReadSendsTxpend := by
  refine ⟨fun s i hi => ?_, fun _ d h => decodeEvent_of_masked d h rfl, fun _ d h => decodeEvent_of_masked d h rfl⟩
  have hexec : exec i s = .next (addrMatchRead s) := by
    simp only [List.mem_cons, List.not_mem_nil, or_false] at hi
    obtain rfl | rfl := hi <;> rfl
  rw [hexec, addrMatchRead, sendPending_eq]
  rfl

/-- Settles O19: DSA is one more sending of `TXPEND`. -/
theorem dataSentAckSendsTxpendAgain : Obligations.DataSentAckSendsTxpendAgain :=
  ⟨fun s => congrArg Host.Outcome.next (sendPending_eq .txSubsequent s), fun _ d h => decodeEvent_of_masked d h rfl⟩

/-- Settles O20: DSN is an answer and nothing else. -/
theorem dataSentNackEndsTheRead : Obligations.DataSentNackEndsTheRead :=
  ⟨fun s => congrArg Host.Outcome.next (answer_eq (r := .ack) rfl .idle s), fun _ d h => decodeEvent_of_masked d h rfl⟩

/-- An event word whose masked status code the default table does not list is unhandled (R123, R124). -/
theorem decodeEvent_of_unlisted {status : Byte} (d : Byte) (h : defaultStatusMap.event? (status &&& 0xF8) = none) :
    decodeEvent [] ⟨status, d⟩ = .unh (codeOf status) := by
  have hclass : classifyDefault status = .unh := by rw [classifyDefault, maskStatus, h, Option.getD_none]
  exact decodePortWord_event hclass d

/-- Settles O21: each of the three is the recovery action, and the default table lists none of the seventeen UNH codes. -/
theorem recoveryAnswersAckStopAndIdles : Obligations.RecoveryAnswersAckStopAndIdles := by
  refine ⟨fun s code i hi => ?_, fun _ d h => decodeEvent_of_masked d h rfl, fun _ d h => decodeEvent_of_masked d h rfl,
    fun _ d h => decodeEvent_of_unlisted d ?_⟩
  · have hexec : ∃ cause, exec i s = .next (busReset cause s) := by
      simp only [List.mem_cons, List.not_mem_nil, or_false] at hi
      obtain rfl | rfl | rfl := hi
      · exact ⟨.lastByteAck, rfl⟩
      · exact ⟨.busError, rfl⟩
      · exact ⟨.unhandled, rfl⟩
    obtain ⟨cause, hcause⟩ := hexec
    rw [hcause, busReset_eq]
    rfl
  · have hunlisted : ∀ v ∈ [(0x08 : Byte), 0x10, 0x18, 0x20, 0x28, 0x30, 0x38, 0x40, 0x48, 0x50, 0x58, 0xD0, 0xD8, 0xE0,
        0xE8, 0xF0, 0xF8], defaultStatusMap.event? v = none := by decide
    exact hunlisted _ h

end Sys2Proof.Proofs

namespace Sys2Proof.Proofs

open Sys2Proof.Machine

/-! ## Where SOR stops (R205, R206, R300) and what the hook port shows (R204) -/

theorem andThen_assoc {α β γ : Type} (o : Host.Outcome α Fault Refusal) (f : α → Host.Outcome β Fault Refusal)
    (g : β → Host.Outcome γ Fault Refusal) : andThen (andThen o f) g = andThen o fun a => andThen (f a) g := by
  cases o <;> rfl

@[simp] theorem andThen_fault {α β : Type} (e : Fault) (f : α → Host.Outcome β Fault Refusal) :
    andThen (.fault e) f = .fault e := rfl

@[simp] theorem andThen_refused {α β : Type} (e : Refusal) (f : α → Host.Outcome β Fault Refusal) :
    andThen (.refused e) f = .refused e := rfl

/-- SOR calls a bound handler: the read hook's on one byte, the write hook's on two (R161, R162). -/
def SorCallsHandler (s : State) : Prop :=
  s.rxlen = 1 ∧ s.params.rdBound = true ∨ s.rxlen = 2 ∧ s.params.wrBound = true

/-- A SOR that calls no handler completes (R161, R162, R163). -/
theorem execSor_of_no_call {s : State} (h : ¬ SorCallsHandler s) : ∃ t, execSor s = .next t := by
  obtain ⟨hread, hwrite⟩ := not_or.mp h
  obtain ⟨hl, -⟩ | ⟨hl, -⟩ | ⟨h1, h2, -⟩ := request_cases s
  · exact ⟨_, execSor_of_read_unbound hl (by simpa [hl] using hread)⟩
  · exact ⟨_, execSor_of_write_unbound hl (by simpa [hl] using hwrite)⟩
  · exact ⟨_, execSor_of_malformed h1 h2⟩

/-- A SOR that calls a handler is one exchange with it, and nothing but the exchange can stop it (R205). -/
theorem execSor_of_call {s : State} (h : SorCallsHandler s) :
    ∃ f : Byte × State → State, execSor s = andThen (hookExchange s.rxbuf.b0 s) fun x => .next (f x) := by
  obtain ⟨hl, hb⟩ | ⟨hl, hb⟩ := h
  · have hreq : request s = .read s.rxbuf.b0 := by simp [request, hl, RxBuf.get]
    rw [execSor, hreq, dispatchRequest, regRead, if_pos hb, andThen_assoc, andThen_assoc]
    exact ⟨fun x => respond .ack (setPhase .idle (setTxpend x.1 (observe (.hook (.rd s.rxbuf.b0 x.1)) x.2))), rfl⟩
  · have hreq : request s = .write s.rxbuf.b0 s.rxbuf.b1 := by simp [request, hl, RxBuf.get]
    rw [execSor, hreq, dispatchRequest, regWrite, if_pos hb, andThen_assoc]
    exact ⟨fun x => respond .ack (setPhase .idle (observe (.hook (.wr s.rxbuf.b0 s.rxbuf.b1)) x.2)), rfl⟩

/-- The outcome of SOR: the next scripted reply of a handler that it calls decides, and otherwise it completes. -/
theorem execSor_outcome (s : State) :
    (SorCallsHandler s ∧ s.replies.head? = some .hangs ∧ execSor s = .fault .handlerNeverReturns) ∨
    (SorCallsHandler s ∧ s.replies.head? = some .commands ∧ execSor s = .refused .commandInsideHandler) ∨
    (¬ ((s.replies.head? = some .hangs ∨ s.replies.head? = some .commands) ∧ SorCallsHandler s) ∧
      ∃ t, execSor s = .next t) := by
  by_cases hcall : SorCallsHandler s
  · obtain ⟨f, hsor⟩ := execSor_of_call hcall
    rw [hsor, hookExchange]
    match s.replies with
    | [] => simp
    | .returns v :: rest => simp
    | .hangs :: rest => simp [hcall]
    | .commands :: rest => simp [hcall]
  · exact .inr (.inr ⟨fun h => hcall h.2, execSor_of_no_call hcall⟩)

theorem execSor_eq_fault_iff (s : State) (f : Fault) : execSor s = .fault f ↔
    f = .handlerNeverReturns ∧ s.replies.head? = some .hangs ∧ SorCallsHandler s := by
  obtain ⟨hcall, hr, hsor⟩ | ⟨hcall, hr, hsor⟩ | ⟨hok, t, hsor⟩ := execSor_outcome s
  · simp [hcall, hr, hsor]
  · simp [hr, hsor]
  · exact iff_of_false (by simp [hsor]) fun ⟨_, hr, hcall⟩ => hok ⟨.inl hr, hcall⟩

theorem execSor_eq_refused_iff (s : State) (r : Refusal) : execSor s = .refused r ↔
    r = .commandInsideHandler ∧ s.replies.head? = some .commands ∧ SorCallsHandler s := by
  obtain ⟨hcall, hr, hsor⟩ | ⟨hcall, hr, hsor⟩ | ⟨hok, t, hsor⟩ := execSor_outcome s
  · simp [hr, hsor]
  · simp [hcall, hr, hsor, eq_comm]
  · exact iff_of_false (by simp [hsor]) fun ⟨_, hr, hcall⟩ => hok ⟨.inr hr, hcall⟩

theorem execSor_completes_iff (s : State) : (∃ t, execSor s = .next t) ↔
    ¬ ((s.replies.head? = some .hangs ∨ s.replies.head? = some .commands) ∧ SorCallsHandler s) := by
  obtain ⟨hcall, hr, hsor⟩ | ⟨hcall, hr, hsor⟩ | ⟨hok, hnext⟩ := execSor_outcome s
  · simp [hcall, hr, hsor]
  · simp [hcall, hr, hsor]
  · exact iff_of_true hnext hok

/-- Settles O17, by the three outcomes of SOR. -/
theorem sorStopsOnlyOnAMisbehavingHandler : Obligations.SorStopsOnlyOnAMisbehavingHandler :=
  fun s => ⟨execSor_eq_fault_iff s, execSor_eq_refused_iff s, execSor_completes_iff s⟩

/-- Settles O31: a call is a request of SOR to a bound hook, with index `RXBUF[0]`. -/
theorem hookPortRequestsOnlyWhenBound : Obligations.HookPortRequestsOnlyWhenBound := by
  intro i s t h
  obtain ⟨hread, -, hcalls⟩ | ⟨-, hwrite, hcalls⟩ | ⟨-, -, hcalls⟩ := exec_calls h
  · obtain ⟨-, -, hb⟩ := of_decide_eq_true hread
    exact .inr ⟨_, hcalls, rfl, fun _ => hb, nofun, nofun⟩
  · obtain ⟨-, -, hb⟩ := of_decide_eq_true hwrite
    exact .inr ⟨_, hcalls, rfl, nofun, fun _ => hb, nofun⟩
  · exact .inl hcalls

end Sys2Proof.Proofs

namespace Sys2Proof.Proofs

open Sys2Proof.Machine

/-! ## The host commands (R215 to R220) -/

theorem legalAddr_iff (a : BusAddr) : legalAddr a = true ↔ 1 ≤ a.toNat ∧ a.toNat ≤ 127 := by
  simp [legalAddr, BitVec.le_def, Config.addrMin, Config.addrMax]

/-- All that INIT does with a legal address (R215, R218). -/
theorem execInit_of_legal {a : BusAddr} (h : legalAddr a = true) (s : State) :
    execInit a s = .next (observeControl (setPhase .idle (armController a s))) :=
  if_pos h

theorem execInit_of_illegal {a : BusAddr} (h : ¬ legalAddr a = true) (s : State) :
    execInit a s = .refused .initAddressZero :=
  if_neg h

/-- Settles O22: every address from 1 to 127 is legal, and INIT's word has `op` = 1. -/
theorem initArmsTheController : Obligations.InitArmsTheController :=
  ⟨fun s a hlow hhigh => execInit_of_legal ((legalAddr_iff a).mpr ⟨hlow, hhigh⟩) s, decodeCommand_init⟩

/-- Settles O23: address 0 is not legal. -/
theorem initZeroIsRefused : Obligations.InitZeroIsRefused := fun s =>
  execInit_of_illegal (a := 0) (by decide) s

/-- SHUTDOWN's word has `op` = 0, and the bits below it are ignored (R94). -/
theorem decodeCommand_shutdown (x : BitVec 7) : decodeCommand ((0 : BitVec 1) ++ x) = .shutdown := by
  have hop : ((0 : BitVec 1) ++ x).getLsbD 7 = false := by
    rw [BitVec.getLsbD_append]; rfl
  rw [decodeCommand, hop]
  exact if_neg Bool.false_ne_true

/-- Settles O24: the control levels that SHUTDOWN logs are the three cleared bits and the kept `GCEN` and `ADDR`. -/
theorem shutdownDisablesTheController : Obligations.ShutdownDisablesTheController :=
  ⟨fun _ => rfl, decodeCommand_shutdown⟩

/-- A host command writes the control fields and PHASE, logs the control levels it leaves, and changes nothing else (R24,
R220). -/
theorem exec_command_frame {i : Instr} {s t : State} (hi : i.isCommand = true) (h : exec i s = .next t) :
    t = { s with
      addr := t.addr, gcen := t.gcen, aa := t.aa, en := t.en, ie := t.ie, phase := .idle
      log := .control (controlLevels t) :: s.log } := by
  cases i with
  | init a => obtain ⟨-, rfl⟩ := execInit_next h; rfl
  | shutdown => cases h; rfl
  | _ => cases hi

/-- Settles O27: the fields named are outside the frame, and control levels are neither a response nor a hook call. -/
theorem hostCommandsKeepDataRegisters : Obligations.HostCommandsKeepDataRegisters := by
  intro i s t hi h
  rw [exec_command_frame hi h]
  exact ⟨rfl, rfl, rfl, rfl, rfl, rfl, rfl, rfl, rfl, rfl⟩

end Sys2Proof.Proofs

namespace Sys2Proof.Proofs

open Sys2Proof.Machine

/-! ## The response of each event operation (R254, R268, R269) -/

/-- A hook call below a response is no response. -/
theorem responses_hookCall (call : Option HookCall) (l : List Obs) :
    responses (call.toList.map Obs.hook ++ l) = responses l := by
  cases call <;> rfl

/-- Settles O29: SOR by what it logs, every other event operation by its one answer. -/
theorem responseOfEachEventOperation : Obligations.ResponseOfEachEventOperation := by
  intro i s t hi h
  cases i with
  | amw | amwAl | gcm | gcmAl | dsn => cases h; exact ⟨rfl, .ack, rfl, rfl, rfl, rfl, rfl⟩
  | berr | unh code | dsaLast => cases h; exact ⟨rfl, .ackStop, rfl, rfl, rfl, rfl, rfl⟩
  | amr | amrAl | dsa => cases h; exact ⟨rfl, Response.ack.withTx s.txpend, rfl, rfl, rfl, rfl, rfl⟩
  | draW d | draG d =>
    cases h
    exact ⟨rfl, .ack, by simp [dataReceivedAck, responses], rfl, rfl, rfl, rfl⟩
  | drnW d | drnG d =>
    cases h
    exact ⟨rfl, .ackStop, by simp [dataReceivedNack, responses], rfl, rfl, rfl, rfl⟩
  | sor =>
    obtain ⟨call, hlog⟩ := execSor_log h
    refine ⟨by rw [execSor_frame h], .ack, ?_, rfl, rfl, rfl, rfl⟩
    rw [hlog, responses, responses_hookCall]
  | init a | shutdown => cases hi

/-! ## What becomes of the pending event in a step (R254, R257, R267) -/

/-- The responses and hook calls that a state's log shows, and its data registers with the transmit register: what an engine
that takes no event leaves alone (R270). -/
def dataView (s : State) : List Response × List HookCall × RxBuf × RxLen × Byte × Byte :=
  (responses s.log, hookCalls s.log, s.rxbuf, s.rxlen, s.txpend, s.txReg)

theorem dataView_eq_iff (s t : State) : dataView t = dataView s ↔
    responses t.log = responses s.log ∧ hookCalls t.log = hookCalls s.log ∧
    t.rxbuf = s.rxbuf ∧ t.rxlen = s.rxlen ∧ t.txpend = s.txpend ∧ t.txReg = s.txReg := by
  simp [dataView]

/-- What a step from `s` to `t` can do about a pending event: answer it, leave it (or raise one where none is), or discard it in
a hardware reset. -/
inductive EventFate (s t : State) : Prop where
  | answered (htaken : eventsTaken s = true) (hcleared : t.event = none) (r : Response)
      (hresponse : responses t.log = r :: responses s.log) (hrearm : r.rearm = true)
  | kept (hevent : t.event = s.event) (hdata : dataView t = dataView s)
  | raised (hnone : s.event = none) (hen : s.en = true) (hdata : dataView t = dataView s)
  | discarded (hreset : noReset s.moves = false) (hcleared : t.event = none)

/-- The event step answers, on the state as it stands but for the count of draws. -/
theorem runEvent_eventFate {w : EventWord} {s u t : State} (h : runEvent w u = .next t) (hlog : u.log = s.log)
    (htaken : eventsTaken s = true) : EventFate s t := by
  obtain ⟨hcleared, r, hresponse, hrearm, -⟩ := responseOfEachEventOperation _ u t (decodeEvent_isCommand _ w) h
  exact .answered htaken hcleared r (hlog ▸ hresponse) hrearm

/-- A host command answers nothing and leaves the event, on the state as it stands but for the count of draws (R220). -/
theorem runCommand_eventFate {c : Byte} {s u t : State} (h : runCommand c u = .next t) (hevent : u.event = s.event)
    (hdata : dataView u = dataView s) : EventFate s t := by
  have hframe := exec_command_frame (decodeCommand_isCommand c) h
  refine .kept ?_ ?_
  · rw [hframe]; exact hevent
  · rw [hframe]; exact hdata

theorem applyMove_dataView {m : EnvMove} (hm : m ≠ .hardReset) (s : State) : dataView (applyMove m s) = dataView s := by
  cases m with
  | hardReset => exact absurd rfl hm
  | raise w | command c | together w c | setMask b | settle => rfl

/-- Of the moves but the reset only a raise while the engine is enabled touches the event port: one that comes while it is
disabled is not queued (R120, log 11). -/
theorem applyMove_event {m : EnvMove} (hm : m ≠ .hardReset) {s : State} (hs : m.isRaise = false ∨ s.en = false) :
    (applyMove m s).event = s.event := by
  cases m with
  | hardReset => exact absurd rfl hm
  | raise w | together w c =>
    obtain hraise | hen := hs
    · cases hraise
    · have hlost : (raiseEvent w s).event = s.event := by rw [raiseEvent_of_disabled w hen]
      exact hlost
  | command c | setMask b | settle => rfl

theorem outsideMove_eventFate (s : State) : EventFate s (outsideMove s) := by
  obtain hid | ⟨m, pre, post, hmoves, hmove, hpending, -⟩ := outsideMove_cases s
  · rw [hid]; exact .kept rfl rfl
  rw [hmove]
  by_cases hm : m = .hardReset
  · subst hm
    exact .discarded (by simp [← Bool.not_eq_true, noReset_iff, hmoves]) rfl
  have hdata : dataView (applyMove m { s with moves := pre ++ post }) = dataView s := applyMove_dataView hm _
  by_cases hs : m.isRaise = false ∨ s.en = false
  · exact .kept (applyMove_event hm hs) hdata
  · obtain ⟨hraise, hen⟩ := not_or.mp hs
    have hnone : ¬ s.event.isSome = true := fun hsome => hraise (hpending hsome)
    exact .raised (by simpa using hnone) (by simpa using hen) hdata

/-- The inversion of a step as to its event: every later statement about a pending event is read off it. -/
theorem step_eventFate {s t : State} (h : step s = .next t) : EventFate s t := by
  obtain ⟨-, ⟨w, -, htaken, -, hrun⟩ | ⟨c, -, -, hrun⟩ | ⟨w, c, -, -, htaken, hrun | hrun⟩⟩ | ⟨-, rfl⟩ := step_cases h
  · exact runEvent_eventFate hrun rfl htaken
  · exact runCommand_eventFate hrun rfl rfl
  · exact runCommand_eventFate (u := nextDraw s) hrun rfl rfl
  · exact runEvent_eventFate (u := nextDraw s) hrun rfl htaken
  · exact outsideMove_eventFate s

/-- While the engine takes no event a step without reset keeps the data registers and answers nothing; it keeps the event port
too, unless an event comes to a free port of an enabled engine (R120, R257). -/
theorem step_of_not_taken {s t : State} (h : step s = .next t) (htaken : eventsTaken s = false)
    (hs : noReset s.moves = true) :
    dataView t = dataView s ∧ (t.event = s.event ∨ s.event = none ∧ s.en = true) := by
  cases step_eventFate h with
  | answered htaken' => simp [htaken] at htaken'
  | kept hevent hdata => exact ⟨hdata, .inl hevent⟩
  | raised hnone hen hdata => exact ⟨hdata, .inr ⟨hnone, hen⟩⟩
  | discarded hreset => simp [hs] at hreset

/-- Settles O46, by `step_of_not_taken`: an event is pending, so none is raised. -/
theorem maskedEventStaysPending : Obligations.MaskedEventStaysPending := by
  intro s t w hw hoff hs h
  have htaken : eventsTaken s = false := (eventsTaken_eq_false_iff s).mpr (by tauto)
  obtain ⟨hdata, hevent | ⟨hnone, -⟩⟩ := step_of_not_taken h htaken hs
  · exact ⟨hevent.trans hw, (dataView_eq_iff s t).mp hdata⟩
  · simp [hw] at hnone

/-! ## The controller's assumptions (R267) -/

theorem eventsToCome_append (m : StatusMap) (xs ys : List EnvMove) :
    eventsToCome m (xs ++ ys) = eventsToCome m xs ++ eventsToCome m ys := by
  induction xs with
  | nil => rfl
  | cons x xs ih => cases x <;> simp [eventsToCome, ih]

theorem eventsToCome_cons_of_not_raise (m : StatusMap) {x : EnvMove} (hx : x.isRaise = false) (xs : List EnvMove) :
    eventsToCome m (x :: xs) = eventsToCome m xs := by
  cases x with
  | raise w | together w c => cases hx
  | command c | setMask b | hardReset | settle => rfl

/-- While an event is pending the outside world's turn uses up no event to come (R267 E2). -/
theorem outsideMove_eventsToCome (m : StatusMap) {s : State} (hs : s.event.isSome = true) :
    eventsToCome m (outsideMove s).moves = eventsToCome m s.moves := by
  obtain hid | ⟨x, pre, post, hmoves, hmove, hpending, -⟩ := outsideMove_cases s
  · rw [hid]
  · rw [hmove, applyMove_moves, hmoves, eventsToCome_append, eventsToCome_append,
      eventsToCome_cons_of_not_raise m (hpending hs)]

theorem step_E2 {s t : State} (h : step s = .next t) : E2 s t := by
  intro hs
  obtain ⟨-, ⟨w, -, -, -, hrun⟩ | ⟨c, -, -, hrun⟩ | ⟨w, c, -, -, -, hrun | hrun⟩⟩ | ⟨-, rfl⟩ := step_cases h
  · rw [exec_moves hrun]
  · rw [exec_moves hrun]; rfl
  · rw [exec_moves hrun]; rfl
  · rw [exec_moves hrun]; rfl
  · exact outsideMove_eventsToCome _ hs

/-- Settles O48: E1 and E3 by the fate of the event, E2 by the events to come. -/
theorem controllerMeetsE1ToE3 : Obligations.ControllerMeetsE1ToE3 := by
  intro s t h
  cases step_eventFate h with
  | answered _ hcleared | discarded _ hcleared =>
    exact ⟨by simp [E1, hcleared], step_E2 h, by simp [E3, hcleared]⟩
  | kept hevent => exact ⟨by simp +contextual [E1, hevent], step_E2 h, by simp +contextual [E3, hevent]⟩
  | raised hnone hen => exact ⟨fun _ _ => hen, step_E2 h, by simp [E3, hnone]⟩

/-! ## An event that a SHUTDOWN overtakes (R254, R216, log 29) -/

theorem runSteps_succ {s t : State} (h : step s = .next t) (k : Nat) : runSteps (k + 1) s = runSteps k t := by
  rw [runSteps, h, andThen_next]

/-- With the engine taking no event and no command waiting, the next move goes ahead if it raises no event (log 12). -/
theorem step_of_not_raise {s : State} {m : EnvMove} {rest : List EnvMove} (htaken : eventsTaken s = false)
    (hc : s.cmd = none) (hmoves : s.moves = m :: rest) (hm : m.isRaise = false) :
    step s = .next (applyMove m { s with moves := rest }) := by
  rw [step_outside ((readyEvent_eq_none_iff s).mpr (.inr htaken)) hc, outsideMove, hmoves, nextMove, hm, Bool.and_false]
  rfl

theorem resetStrikes_eq_false_iff (s : State) : resetStrikes s = false ↔ s.moves.head? ≠ some .hardReset :=
  decide_eq_false_iff_not

/-- A state that HOSTMASK holds off as it does `s`: the event port, parameters, data and traffic of `s`, no command waiting, and
the moves `rest` to come. -/
structure MaskedAs (s : State) (rest : List EnvMove) (u : State) : Prop where
  hostMask : u.hostMask = true
  cmd : u.cmd = none
  moves : u.moves = rest
  event : u.event = s.event
  params : u.params = s.params
  data : dataView u = dataView s

/-- While held off the next move goes ahead if it raises no event, and does so in one step. -/
theorem MaskedAs.step_move {s u : State} {m : EnvMove} {rest : List EnvMove} (hu : MaskedAs s (m :: rest) u)
    (hm : m.isRaise = false) : step u = .next (applyMove m { u with moves := rest }) :=
  step_of_not_raise ((eventsTaken_eq_false_iff u).mpr (.inr (.inr hu.hostMask))) hu.cmd hu.moves hm

/-- A command that comes while events are held off goes to its port in one step and runs in the next. -/
theorem MaskedAs.runSteps_command {s u v : State} {c : Byte} {rest : List EnvMove} (hu : MaskedAs s (.command c :: rest) u)
    (hrest : rest.head? ≠ some .hardReset)
    (hrun : exec (decodeCommand c) { u with moves := rest, cmd := none } = .next v) (k : Nat) :
    runSteps (k + 2) u = runSteps k v ∧ MaskedAs s rest v := by
  have hrun' : step (placeCommand c { u with moves := rest }) = .next v :=
    (stepRunsTheDecodedCommand (placeCommand c { u with moves := rest }) c rfl (.inr (.inr (.inr hu.hostMask)))
      ((resetStrikes_eq_false_iff _).mpr hrest)).trans hrun
  refine ⟨?_, ?_⟩
  · rw [runSteps_succ (hu.step_move rfl)]
    exact runSteps_succ hrun' k
  · rw [exec_command_frame (decodeCommand_isCommand c) hrun]
    exact ⟨hu.hostMask, rfl, rfl, hu.event, hu.params, hu.data⟩

theorem exec_shutdownWord (x : BitVec 7) (s : State) : ∃ t, exec (decodeCommand ((0 : BitVec 1) ++ x)) s = .next t := by
  rw [decodeCommand_shutdown]
  exact ⟨_, rfl⟩

/-- INIT with a device address completes and enables the engine (R215, R217). -/
theorem exec_initWord {a : BusAddr} (ha : a ≠ 0) (s : State) :
    ∃ t, exec (decodeCommand ((1 : BitVec 1) ++ a)) s = .next t ∧ t.en = true ∧ t.ie = true := by
  have hlegal : legalAddr a = true := by rw [legalAddr_iff]; bv_omega
  rw [decodeCommand_init]
  exact ⟨_, execInit_of_legal hlegal s, rfl, rfl⟩

/-- Settles O47: the step by its event's fate; the run by its five steps, two for each command and the lifting of the mask. -/
theorem pendingEventIsClearedByItsResponseAlone : Obligations.PendingEventIsClearedByItsResponseAlone := by
  refine ⟨fun s t w hw hs h => ?_, fun s w x a rest hw hc hmask ha hmoves hrest => ?_⟩
  · cases step_eventFate h with
    | answered _ hcleared r hresponse hrearm => exact .inr ⟨hcleared, r, hresponse, hrearm⟩
    | kept hevent => exact .inl (hevent.trans hw)
    | raised hnone => simp [hw] at hnone
    | discarded hreset => simp [hs] at hreset
  · have hstart : MaskedAs s _ s := ⟨hmask, hc, hmoves, rfl, rfl, rfl⟩
    obtain ⟨u, hshutdown⟩ := exec_shutdownWord x _
    obtain ⟨hrunu, hu⟩ := hstart.runSteps_command nofun hshutdown 3
    obtain ⟨v, hinit, hen, hie⟩ := exec_initWord ha _
    obtain ⟨hrunv, hv⟩ := hu.runSteps_command nofun hinit 1
    have hunmask := runSteps_succ (hv.step_move rfl) 0
    obtain ⟨hresponses, -, hbuf, hlen, htxpend, -⟩ := (dataView_eq_iff s v).mp hv.data
    have hevent : v.event = some w := hv.event.trans hw
    refine ⟨_, hrunu.trans (hrunv.trans hunmask), hevent, hbuf, hlen, htxpend, hresponses, ?_⟩
    rw [← hv.params]
    exact stepRunsTheDecodedEvent (setHostMask false { v with moves := rest }) w hevent hen hie rfl hv.cmd
      ((resetStrikes_eq_false_iff _).mpr hrest)

/-! ## Inert until INIT (R120, R270) -/

/-- The command word that a move of the outside world puts on the command port. -/
def commandOf : EnvMove → Option Byte
  | .command c | .together _ c => some c
  | .raise _ | .setMask _ | .hardReset | .settle => none

theorem commandOf_eq_some_iff (m : EnvMove) (c : Byte) :
    commandOf m = some c ↔ m = .command c ∨ ∃ w, m = .together w c := by
  cases m <;> simp [commandOf]

/-- A command word waits on the port or is still to come. -/
def CommandToCome (s : State) (c : Byte) : Prop := s.cmd = some c ∨ ∃ m ∈ s.moves, commandOf m = some c

/-- The state of a disabled engine that nothing to come will reset or initialise (R270). -/
structure Inert (s : State) : Prop where
  disabled : s.en = false
  noReset : noReset s.moves = true
  noInit : ∀ c, CommandToCome s c → c.getLsbD 7 = false

theorem Inert.not_taken {s : State} (hs : Inert s) : eventsTaken s = false :=
  (eventsTaken_eq_false_iff s).mpr (.inl hs.disabled)

theorem decodeCommand_of_op_zero {c : Byte} (h : c.getLsbD 7 = false) : decodeCommand c = .shutdown := by
  rw [decodeCommand, h]
  exact if_neg Bool.false_ne_true

theorem applyMove_en {m : EnvMove} (hm : m ≠ .hardReset) (s : State) : (applyMove m s).en = s.en := by
  cases m with
  | hardReset => exact absurd rfl hm
  | raise w | command c | together w c | setMask b | settle => rfl

theorem applyMove_cmd (m : EnvMove) (s : State) : (applyMove m s).cmd = (commandOf m).or s.cmd := by
  cases m <;> rfl

theorem outsideMove_keeps_inert {s : State} (hs : Inert s) : Inert (outsideMove s) := by
  have hsub := outsideMove_moves_sublist s
  have hreset : .hardReset ∉ s.moves := (noReset_iff _).mp hs.noReset
  obtain hid | ⟨m, pre, post, hmoves, hmove, -⟩ := outsideMove_cases s
  · rwa [hid]
  have hmem : m ∈ s.moves := by simp [hmoves]
  refine ⟨?_, (noReset_iff _).mpr fun h => hreset (hsub.subset h), fun c hc => hs.noInit c ?_⟩
  · rw [hmove, applyMove_en (fun h => hreset (h ▸ hmem))]
    exact hs.disabled
  · obtain hport | ⟨x, hx, hxc⟩ := hc
    · rw [hmove, applyMove_cmd, Option.or_eq_some_iff] at hport
      obtain hplaced | ⟨-, hwaits⟩ := hport
      · exact .inr ⟨m, hmem, hplaced⟩
      · exact .inl hwaits
    · exact .inr ⟨x, hsub.subset hx, hxc⟩

/-- The command of an inert engine is a SHUTDOWN, which leaves it disabled (R216). -/
theorem runCommand_keeps_inert {c : Byte} {s t : State} (hs : Inert s) (hc : s.cmd = some c)
    (h : runCommand c s = .next t) : Inert t := by
  rw [runCommand, decodeCommand_of_op_zero (hs.noInit c (.inl hc))] at h
  cases h
  exact ⟨rfl, hs.noReset, fun d hd => hs.noInit d (.inr (hd.resolve_left nofun))⟩

theorem step_keeps_inert {s t : State} (h : step s = .next t) (hs : Inert s) : Inert t := by
  obtain ⟨-, ⟨w, -, htaken, -⟩ | ⟨c, hc, -, hrun⟩ | ⟨w, c, -, -, htaken, -⟩⟩ | ⟨-, rfl⟩ := step_cases h
  · simp [hs.not_taken] at htaken
  · exact runCommand_keeps_inert hs hc hrun
  · simp [hs.not_taken] at htaken
  · exact outsideMove_keeps_inert hs

/-- A step of an inert engine takes no event, queues none, and leaves data and traffic alone (R120, R270). -/
theorem step_of_inert {s t : State} (h : step s = .next t) (hs : Inert s) :
    t.event = s.event ∧ dataView t = dataView s := by
  obtain ⟨hdata, hevent | ⟨-, hen⟩⟩ := step_of_not_taken h hs.not_taken hs.noReset
  · exact ⟨hevent, hdata⟩
  · simp [hs.disabled] at hen

theorem runSteps_of_inert {k : Nat} {s t : State} (h : runSteps k s = .next t) (hs : Inert s) :
    t.en = false ∧ t.event = s.event ∧ dataView t = dataView s := by
  induction k generalizing s with
  | zero => cases h; exact ⟨hs.disabled, rfl, rfl⟩
  | succ k ih =>
    obtain ⟨u, hu, ht⟩ := andThen_eq_next.mp h
    obtain ⟨huevent, hudata⟩ := step_of_inert hu hs
    obtain ⟨hen, hevent, hdata⟩ := ih ht (step_keeps_inert hu hs)
    exact ⟨hen, hevent.trans huevent, hdata.trans hudata⟩

/-- Settles O56: the engine is inert at the start, and an inert engine stays so. -/
theorem inertUntilInit : Obligations.InertUntilInit := by
  intro k s t hen hreset hcommand htogether hport hrun
  have hinit : ∀ c, CommandToCome s c → c.getLsbD 7 = false := by
    rintro c (hc | ⟨m, hm, hmc⟩)
    · exact hport c hc
    · obtain rfl | ⟨w, rfl⟩ := (commandOf_eq_some_iff m c).mp hmc
      · exact hcommand c hm
      · exact htogether w c hm
  obtain ⟨hoff, hevent, hdata⟩ := runSteps_of_inert hrun ⟨hen, hreset, hinit⟩
  exact ⟨hoff, hevent, (dataView_eq_iff s t).mp hdata⟩

end Sys2Proof.Proofs

namespace Sys2Proof.Proofs

open Sys2Proof.Machine

/-! ## A reset with anything pending (R290) -/

/-- With no event, no command and no move to come, any number of steps changes nothing. -/
theorem runSteps_of_idle {s : State} (he : s.event = none) (hc : s.cmd = none) (hmoves : s.moves = []) (k : Nat) :
    runSteps k s = .next s := by
  have hstep : step s = .next s := by
    rw [step_outside ((readyEvent_eq_none_iff s).mpr (.inl he)) hc, outsideMove_of_no_moves hmoves]
  induction k with
  | zero => rfl
  | succ k ih => rw [runSteps_succ hstep, ih]

/-- Settles O51: the reset comes before any event or command (`step_reset`), and what it leaves idles. -/
theorem resetStrikesWhateverIsPending : Obligations.ResetStrikesWhateverIsPending := by
  intro s rest hmoves
  refine ⟨_, step_reset hmoves, rfl, rfl, rfl, rfl, rfl, rfl, rfl, fun hc hrest => ?_⟩
  exact runSteps_of_idle (hardReset_event _) hc hrest

/-! ## A read after SHUTDOWN and INIT (R220, R294) -/

theorem legalAddr_of_ne_zero {a : BusAddr} (ha : a ≠ 0) : legalAddr a = true := by
  rw [legalAddr_iff]
  bv_omega

theorem exec_command_dataView {i : Instr} {s t : State} (hi : i.isCommand = true) (h : exec i s = .next t) :
    dataView t = dataView s := by
  rw [exec_command_frame hi h]
  rfl

/-- Settles O25: neither command touches the data registers or answers, and the address match for read sends `TXPEND`. -/
theorem stagedByteSurvivesShutdownAndInit : Obligations.StagedByteSurvivesShutdownAndInit := by
  intro s a ha
  obtain ⟨u, hshutdown⟩ : ∃ u, exec .shutdown s = .next u := ⟨_, rfl⟩
  obtain ⟨v, hinit⟩ : ∃ v, exec (.init a) u = .next v := ⟨_, execInit_of_legal (legalAddr_of_ne_zero ha) u⟩
  have hdata : dataView v = dataView s :=
    (exec_command_dataView rfl hinit).trans (exec_command_dataView rfl hshutdown)
  obtain ⟨hresponses, -, hbuf, -, htxpend, -⟩ := (dataView_eq_iff s v).mp hdata
  have hread := addrMatchRead_sendsCopies v
  refine ⟨addrMatchRead v, (execAll_cons hshutdown).trans (execAll_cons hinit), hbuf, hread.txpend.trans htxpend, ?_, ?_⟩
  · rw [hread.sent, htxpend, sentBytes, hresponses]
    rfl
  · obtain ⟨-, rfl⟩ := execInit_next hinit
    exact ⟨rfl, rfl, rfl, rfl, rfl⟩

end Sys2Proof.Proofs
